-- ==== Sys2Proof/Word.lean ====
section
/-!
DEFINITION. The word types of the PLV7264 model (spec 00 R9, 01 R25, 03 R62).
-/
namespace Sys2Proof

/-- A byte of scratchpad, stack or message. -/
abbrev Byte := BitVec 8

/-- A 32-bit word: FP32 values, index registers, 32-bit objects. -/
abbrev Word := BitVec 32

/-- A 64-bit word: accumulator pairs, 64-bit objects. -/
abbrev DWord := BitVec 64

/-- One 128-bit instruction word (04 R90). -/
abbrev IWord := BitVec 128

/-- A time in units of 0.25 ns, the finest unit in which the spec states a time (11 R298, R320). -/
abbrev Time := Nat

end Sys2Proof
end

