-- ==== Sys2Proof/Syntax.lean ====
section
/-!
DEFINITION. The commands of the PLV7264 block: one constructor for each row of spec/opcode_table.json.
The table gives a row no operand; each operand here is named by the rule that the row cites.
-/
namespace Sys2Proof

/-- A half of the panel (01 R15). -/
inductive Half where
  | north | south
deriving DecidableEq, Repr, Inhabited

/-- A party that accesses the dictionary: a CAN client of one port, or a fabric requester that enters in one half (16 R427, R434). -/
inductive Party where
  | can (half : Half) (node : BitVec 7)
  | fabric (half : Half) (smod : BitVec 12) (req : BitVec 8)
deriving DecidableEq, Repr, Inhabited

/-- Physical site number (01 R12). -/
abbrev Site := Fin 72
/-- Logical cluster number (01 R23). -/
abbrev ClusterId := Fin 512
/-- Rim die, named by its stack index (01 R16). -/
abbrev RimId := Fin 16
/-- Fabric port number (01 R17). -/
abbrev PortId := Fin 32

/-- F-engines (01 Table 1.6). -/
inductive FSel where
  | f0 | f1
deriving DecidableEq, Repr, Inhabited
/-- G-engines (01 Table 1.6). -/
inductive GSel where
  | g0 | g1 | g2 | g3
deriving DecidableEq, Repr, Inhabited
/-- V-engines (01 Table 1.6). -/
inductive VSel where
  | v0 | v1
deriving DecidableEq, Repr, Inhabited
/-- Movers (01 Table 1.6). -/
inductive MSel where
  | m0 | m1
deriving DecidableEq, Repr, Inhabited

/-- The eleven engines of a cluster (01 Table 1.6). -/
inductive Engine where
  | f (e : FSel)
  | g (e : GSel)
  | v (e : VSel)
  | u
  | m (e : MSel)
deriving DecidableEq, Repr, Inhabited

/-- The outcome a member votes (02 R45). -/
inductive Vote where
  | commit | hold | abandon
deriving DecidableEq, Repr, Inhabited

/-- The staged records (16 Table 16.8). -/
inductive StagedRec where
  | r2002 | r2410 | r2420 | r2800 | r3080 | r3800 | r3C00
deriving DecidableEq, Repr, Inhabited

/-- A seam link direction, at its sending end: a site or a rim die, an edge and a link (10 R291). -/
inductive SeamDir where
  | site (s : Site) (edge : Fin 4) (link : Fin 4)
  | rim (n : RimId) (edge : Fin 2) (link : Fin 4)
deriving DecidableEq, Repr, Inhabited

/-- A unit named in fault records, defect entries and the census (14 Table 14.4, 15 Table 15.6). -/
inductive UnitId where
  | site (s : Site)
  | rim (n : RimId)
  | maltster (h : Half)
  | module
deriving DecidableEq, Repr, Inhabited

/-- A lane that failed the training of a seam direction (10 R284). -/
structure LaneFail where
  dir  : SeamDir
  lane : Fin 68
deriving DecidableEq, Repr

/-- A unit that fails its self-test (14 Table 14.3). -/
inductive TestFailure where
  | bankRow (l : Fin 8) (bank : Fin 64) (row : Nat)
  | cacheGroup (group : Nat)
  | accMemory (l : Fin 8)
  | peRow (l : Fin 8) (engine : Fin 6) (row : Fin 132)
  | peCol (l : Fin 8) (engine : Fin 6) (col : Fin 132)
  | engineUnit (l : Fin 8)
  | droopOrEstimator
deriving DecidableEq, Repr

/-- What the steps after boot find: the halves whose flash copy of the defect list cannot be read at step 2 (14 R378), and what
rim training and stack training of steps 3 and 4 find (14 Table 14.3). -/
structure TrainingReport where
  unread   : List Half
  lanes    : List LaneFail
  channels : List (RimId × Fin 64)
  cores    : List (RimId × Fin 4)
  rimFail  : List RimId
deriving DecidableEq, Repr

/-- The direction and the contents of a USDO segment (16 R423). -/
inductive Segment where
  | write (data : List Byte) (last : Bool)
  | read (count : Nat)
deriving DecidableEq, Repr

/-- A management request (16 Tables 16.11 and 16.14). -/
structure MgmtRequest where
  time   : Time
  half   : Half
  smod   : BitVec 12
  req    : BitVec 8
  txn    : BitVec 15
  op     : BitVec 3
  index  : BitVec 16
  sub    : BitVec 8
  ord    : Bool
  last   : Bool
  offset : BitVec 64
  count  : BitVec 32
  data   : List Byte
deriving DecidableEq, Repr

/-- A fabric packet: its 128-bit header and its payload bytes (11 R302). -/
structure FabPacket where
  header  : BitVec 128
  payload : List Byte
deriving DecidableEq, Repr, Inhabited

/-- A fabric codeword as a receiver sees it: the lane, whether the RS decoder succeeded, the symbols it
corrected, the control field and the received 72-bit words (11 R295, R297). -/
structure Codeword where
  lane      : Fin 8
  rsOk      : Bool
  corrected : Nat
  control   : BitVec 100
  words     : List (BitVec 72)
deriving DecidableEq, Repr

/-- A firmware chunk or repair chunk (14 Table 14.7a). -/
structure Chunk where
  image   : BitVec 8
  seq     : BitVec 32
  session : BitVec 32
  data    : List Byte
deriving DecidableEq, Repr

/-- A channel that exceeds its haze threshold (15 Table 15.1). -/
inductive HazeChannel where
  | seamLane (d : SeamDir) (lane : Fin 68)
  | seamDirection (d : SeamDir)
  | fabricLane (p : PortId) (lane : Fin 8)
  | fabricPort (p : PortId)
  | bankRow (s : Site) (l : Fin 8) (bank : Fin 64) (row : Nat)
  | cacheGroup (s : Site) (group : Nat)
  | stackChannel (n : RimId) (channel : Fin 64)
deriving DecidableEq, Repr

/-- Where an uncorrectable word was read on the job's behalf (08 R241, 15 Table 15.2): its module address, or its number
in an engine's memories, or the router of a site; `noCopy`: every copy of a carry word is uncorrectable too. -/
inductive DataErrorAt where
  | scratchpad (k : ClusterId) (engine : Engine) (addr : Nat) (noCopy : Bool)
  | engineMemory (k : ClusterId) (engine : Engine) (word : Nat)
  | stack (addr : Nat) (noCopy : Bool)
  | router (s : Site)
deriving DecidableEq, Repr

/-- The cause of a protective trip, in the bit order of 2400h:07h (13 R342, Table 13.8). -/
inductive TripCause where
  | undervoltage | overvoltage | overcurrent | overtemperature | converter | inlet
deriving DecidableEq, Repr, Inhabited

/-- The kinds of engine cycles that an activity count weighs (13 R350): a product cycle by its operand format and the products
not gated in it, a slot-path row, a V-engine datapath cycle, a U-unit line, a mover line, a spin cycle, and a word issued. -/
inductive CycleKind where
  | product (fmt : BitVec 4) (products : Nat)
  | slotRow
  | vector
  | update
  | mover
  | spin
  | issue
deriving DecidableEq, Repr

/-- What one cluster's activity counters report over a control step: its engine cycles by kind, and the counters of its objects
(13 R350; 04 R117; 05 R149; 09 R248). -/
structure ClusterActivity where
  k        : ClusterId
  cycles   : List (CycleKind × Nat)
  spin     : Nat
  bubbles  : Nat
  stalls   : List (Engine × Nat)
  misses   : List (MSel × Nat)
  issue    : Nat
  wtWaits  : Nat
  mashWaits : Nat
deriving DecidableEq, Repr

/-- What one site's sensors report over a control step, in the units of Table 13.8, and the traffic count of its seam domain (13
R343, R350, R368). -/
structure SiteReading where
  s        : Site
  traffic  : Nat
  junction : Int
  vcore    : Nat
  iCore    : Nat
  iSram    : Nat
  iSeam    : Nat
deriving DecidableEq, Repr

/-- What one rim die's sensors report (13 Table 13.8), and the traffic counts of its three rails (13 R350). -/
structure RimReading where
  n        : RimId
  serdes   : Nat
  rim      : Nat
  cask     : Nat
  onSerdes : Nat
  onRim    : Nat
  onCask   : Nat
  junction : Int
deriving DecidableEq, Repr

/-- Every quantity a control step takes from counters and sensors (13 R350, R352, R356). -/
structure ControlInputs where
  clusters   : List ClusterActivity
  sites      : List SiteReading
  rims       : List RimReading
  inputPower : Nat
  voltNorth  : Nat
  voltSouth  : Nat
  ampNorth   : Nat
  ampSouth   : Nat
  inlet      : Int
  outlet     : Int
deriving DecidableEq, Repr

/-- One rail over a calibration window: the unit, the rail in the order of Table 13.2, the measured and the
estimated energy in microjoules, and whether the rail was off or in retention (13 R351). -/
structure RailWindow where
  unit   : UnitId
  rail   : Fin 3
  m      : Nat
  e      : Nat
  absent : Bool
deriving DecidableEq, Repr

/-- What a calibration window takes from the analogue side (13 R351, R359): the rails, whether a clock switch
fell in it, each half's converted input and the sum of its measured rails, in microjoules, and whether each
half's input measurement was in its calibrated range (13 R364). -/
structure CalibrationInputs where
  rails        : List RailWindow
  clockSwitch  : Bool
  inputNorth   : Nat
  inputSouth   : Nat
  railsNorth   : Nat
  railsSouth   : Nat
  inRangeNorth : Bool
  inRangeSouth : Bool
deriving DecidableEq, Repr

/-- What the IPv6 header of a received packet says: its addresses, and whether extension headers or a fragment follow (12
R329). -/
structure Ip6In where
  src : BitVec 128
  dst : BitVec 128
  ext : Bool
deriving DecidableEq, Repr

/-- A UDP datagram received on an Ethernet-mode port: the link-layer source of its frame, its IPv6 header, its UDP ports, its
checksum field and its payload (12 R329, R330). -/
structure Datagram where
  port     : PortId
  mac      : BitVec 48
  ip       : Ip6In
  srcPort  : BitVec 16
  dstPort  : BitVec 16
  checksum : BitVec 16
  payload  : List Byte
deriving DecidableEq, Repr

/-- A live request is keyed by its source address and RID (12 R331). -/
structure RequestKey where
  src : BitVec 128
  rid : DWord
deriving DecidableEq, Repr, Inhabited

/-- A frame that is not accepted: by its link layer (11 Table 11.13), an ICMPv6 message of another type, or a datagram (12 R328
to R330). -/
inductive DiscardReason where
  | vlanOrEtherType | pause | oversized | icmpOther
  | datagram (d : Datagram)
deriving DecidableEq, Repr

/-- An uncorrectable word met by the copies of a job start: the code of Table 15.2, the rim die of the stack that
held it, and bits [31:0] of its line (16 R430; 15 Table 15.7). -/
structure CopyFault where
  code : BitVec 8
  rim  : RimId
  line : Word
deriving DecidableEq, Repr

/-- The commands of the block, in the order of spec/opcode_table.json. -/
inductive Instr where
  -- the tick (02)
  | tickEdge (t : Time) (drain : Nat)
  | tickInPulse (t : Time) (drain : Nat)
  | flywheelEdge (drain : Nat)
  | tickSourceLost
  | beaconReceived (port : PortId) (t : Time) (seq : DWord) (offset : BitVec 16) (hops : BitVec 4) (good : Bool) (drain : Nat)
  | censusTimeout (drain : Nat)
  | domainVoteReceived (port : PortId) (t : Time) (pkt : FabPacket) (drain : Nat)
  | voteWaitExpiry (drain : Nat)
  | frameOverrun
  | writeOutComplete
  | vcoreRampDone (s : Site)
  -- jobs and ownership (16)
  | jobControlStart (p : Party)
  | jobControlEndAtCommit (p : Party)
  | jobControlEndNow (p : Party)
  | serviceJobStart (p : Party)
  | serviceJobEnd (p : Party)
  | jobStartCopiesDone (fault : Option CopyFault)
  | ownershipClaim (p : Party)
  | ownershipRelease (p : Party)
  | ownershipRevoke (p : Party)
  | memoryWindowWrite (p : Party) (data : List Byte)
  | memoryWindowRead (p : Party) (length : Nat)
  | numericFlagsClear (p : Party) (k : ClusterId)
  | diagnosticArm (p : Party) (k : ClusterId) (value : DWord)
  -- resets (10 R290, 14 R391)
  | seamResetNow (p : Party) (s : Site)
  | seamResetAtJobEnd (p : Party) (s : Site)
  | seamResetWithdraw (p : Party) (s : Site)
  | seamResetComplete (s : Site) (lanes : List LaneFail)
  | computeDomainReset (p : Party) (s : Site)
  | computeResetComplete (s : Site) (failures : List TestFailure) (verified : BitVec 8)
  -- the dictionary (16)
  | stagedFieldWrite (p : Party) (rec : StagedRec) (sub : BitVec 8) (data : List Byte)
  | stagedCommitAtTick (p : Party) (rec : StagedRec) (t : Time)
  | stagedCommitNow (p : Party) (rec : StagedRec)
  | stagedDiscard (p : Party) (rec : StagedRec)
  | objectWrite (p : Party) (index : BitVec 16) (sub : BitVec 8) (data : List Byte)
  | usdoSegment (p : Party) (index : BitVec 16) (sub : BitVec 8) (seg : Segment)
  | usdoTimeout (p : Party)
  -- power states and the rack manager (13, 15)
  | powerStateRun (p : Party)
  | powerStateHold (p : Party)
  | powerStatePark (p : Party)
  | powerStateQuiet (p : Party)
  | powerStateChangeDone
  | rackBudgetWrite (p : Party) (watts : Word)
  | budgetTimeout
  | crownWitness (p : Party) (epoch : Word)
  | lifetimeEnergyRead (p : Party)
  -- identity and images (14, 17)
  | attestationChallenge (p : Party) (nonce : List Byte)
  | attestationReportReady (h : Half)
  | imageSetUpload (p : Party) (data : List Byte)
  | activationClusterService (p : Party)
  | activationFullRestart (p : Party)
  | defectListClearRequest (p : Party) (data : List Byte)
  -- management (11 R324, 16 R434)
  | managementRoutesWrite (p : Party) (data : List Byte)
  | managementRequest (r : MgmtRequest)
  | managementForward (port : PortId) (pkt : FabPacket)
  -- the field network (16)
  | nmtStart (h : Half)
  | nmtEnterPreOperational (h : Half)
  | nmtResetCommunication (h : Half)
  | nmtStop (h : Half)
  | nmtResetNode (h : Half)
  | nmtResetApplication (h : Half)
  | nmtHeartbeat (h : Half)
  | crownHeartbeat (h : Half)
  | emcySend (h : Half)
  -- the sequencer (04)
  | engineWordIssue (k : ClusterId)
  | nop (k : ClusterId)
  | seti (k : ClusterId)
  | addi (k : ClusterId)
  | br (k : ClusterId)
  | loop (k : ClusterId)
  | testf (k : ClusterId)
  | clrf (k : ClusterId)
  | boil (k : ClusterId)
  | yield (k : ClusterId)
  | fend (k : ClusterId)
  | halt (k : ClusterId)
  | taskSwitch (k : ClusterId)
  | taskSwitchTimeout (k : ClusterId)
  -- F-engines (05)
  | fnop (k : ClusterId) (e : FSel)
  | fmm (k : ClusterId) (e : FSel)
  | fload (k : ClusterId) (e : FSel)
  | fdrain (k : ClusterId) (e : FSel)
  | fclear (k : ClusterId) (e : FSel)
  -- G-engines (06)
  | gnop (k : ClusterId) (e : GSel)
  | gmm (k : ClusterId) (e : GSel)
  | gload (k : ClusterId) (e : GSel)
  | gdrain (k : ClusterId) (e : GSel)
  | gclear (k : ClusterId) (e : GSel)
  | gmerge (k : ClusterId) (e : GSel)
  | gmpush (k : ClusterId) (e : GSel)
  | gmpop (k : ClusterId) (e : GSel)
  | galt (k : ClusterId) (e : GSel)
  | mashSpillDone (k : ClusterId) (lane : Fin 2)
  | mashPrefetchArrival (k : ClusterId) (lane : Fin 2)
  -- the U-unit (06)
  | unop (k : ClusterId)
  | uapply (k : ClusterId)
  | ucast (k : ClusterId)
  -- V-engines (07)
  | vnop (k : ClusterId) (e : VSel)
  | vld (k : ClusterId) (e : VSel)
  | vst (k : ClusterId) (e : VSel)
  | vbin (k : ClusterId) (e : VSel)
  | vfma (k : ClusterId) (e : VSel)
  | vun (k : ClusterId) (e : VSel)
  | vcmp (k : ClusterId) (e : VSel)
  | vsel (k : ClusterId) (e : VSel)
  | vred (k : ClusterId) (e : VSel)
  | vcvt (k : ClusterId) (e : VSel)
  | vldl (k : ClusterId) (e : VSel)
  | vstl (k : ClusterId) (e : VSel)
  -- movers (08, 09)
  | mnop (k : ClusterId) (e : MSel)
  | mcopy (k : ClusterId) (e : MSel)
  | madd (k : ClusterId) (e : MSel)
  | msigAdd (k : ClusterId) (e : MSel)
  | msigSubtract (k : ClusterId) (e : MSel)
  | msigSet (k : ClusterId) (e : MSel)
  | msigRelay (k : ClusterId) (e : MSel)
  -- completion and the networks (04, 08, 09, 10, 11); `i` names a packet in flight
  | instructionComplete (k : ClusterId) (e : Engine) (i : Nat)
  | syncSignalArrival (i : Nat)
  | relaySignalApply (i : Nat)
  | bulkWriteReceived (i : Nat)
  | mergeWriteReceived (i : Nat)
  | bulkReadReceived (i : Nat)
  | readDataReceived (i : Nat)
  | bulkAckReceived (i : Nat)
  | rateRaise (c : BitVec 8)
  | treeContributionReceived (i : Nat)
  | ordPacketRelease (i : Nat)
  -- faults and memory upkeep (05, 08, 15)
  | arrayCheckEvent (s : Site) (l : Fin 8) (engine : Fin 6) (row : Fin 132) (col : Fin 132) (t : Time)
  | slateReleaseDone (s : Site)
  | slateReloadDone (s : Site)
  | dataError (place : DataErrorAt)
  | computeDomainFailure (s : Site)
  | seamDomainFailure (s : Site)
  | stackChannelFailure (n : RimId) (channel : Fin 64)
  | hazeThresholdExceeded (c : HazeChannel)
  | patrolScrub (n : RimId) (line : Nat)
  | stackRefresh (n : RimId) (celsius : Int)
  | stackRetrain (n : RimId) (channel : Fin 32)
  -- seam links (10)
  | seamFlitReceived (d : SeamDir) (upsets : List (BitVec 72)) (lane : Option (Fin 68))
  | seamLaneFailure (d : SeamDir) (lane : Fin 68)
  | linkPauseEnd (d : SeamDir)
  | seamHealthUpdate (u : UnitId) (d : SeamDir)
  | seamDrainComplete (d : SeamDir)
  | seamDrainTimeout (d : SeamDir)
  -- fabric ports (11)
  | fabricCodewordReceived (p : PortId) (cw : Codeword)
  | fabricPacketReceived (p : PortId) (t : Time) (pkt : FabPacket)
  | fabricLaneFailure (p : PortId) (lane : Fin 8)
  | fabricHealthUpdate (smod : BitVec 12) (port : PortId) (retired : Bool)
  | portDrainComplete (p : PortId)
  | portDrainTimeout (p : PortId)
  -- start-up (14)
  | powerGood (h : Half) (t : Time)
  | startUpAgreement (t : Time) (r : TrainingReport)
  | firmwareChunkReceived (s : Site) (l : Fin 8) (c : Chunk)
  | endOfPassReceived (s : Site) (l : Fin 8) (session : Word)
  | repairRequestReceived (s : Site) (l : Fin 8) (ranges : List (Nat × Nat))
  -- power (13)
  | protectiveTrip (h : Half) (cause : TripCause)
  | droopTrip (s : Site) (level : Fin 2) (relock : Bool)
  | droopHoldExpiry (s : Site)
  | controlStep (c : ControlInputs)
  | calibrationWindow (c : CalibrationInputs)
  | energyIntegration (north south : Nat)
  | lifetimeEnergySave
  | lowFlowWarning (flow : Nat)
  -- the crown (15)
  | crownRenewal
  | crownRenewalReceived
  | crownTake (h : Half)
  | crownUnconfirmed (h : Half)
  | crossHalfCommand
  | crossHalfTimeout
  -- the service layer (12)
  | submit (d : Datagram) (t : Time)
  | prompt (d : Datagram)
  | ack (d : Datagram)
  | cancel (d : Datagram)
  | tokensResend (key : RequestKey)
  | promptTimeout (key : RequestKey)
  | queueWaitExpiry (key : RequestKey)
  | batchAdmission
  | pageIn (slot : Nat) (page : Fin 256)
  | pageOut (slot : Nat) (page : Fin 256)
  | sampleToken (slot : Nat)
  | serviceCutoff
  | neighbourSolicitation (port : PortId) (ip : Ip6In) (mac : BitVec 48) (target : BitVec 128)
  | echoRequest (port : PortId) (ip : Ip6In) (mac : BitVec 48) (data : List Byte)
  -- the late rows
  | lossOfInput
  | southMaltsterClaims
  | selfTestComplete (s : Site) (failures : List TestFailure)
  | fabricPortTrained (p : PortId) (locked : BitVec 8) (peer : BitVec 12) (delay : BitVec 16)
  | ethernetLinkDown (p : PortId)
  | ethernetLinkUp (p : PortId)
  | discardedDatagram (p : PortId) (reason : DiscardReason)
  | inletAbove45C (tenths : Int)
deriving DecidableEq, Repr

end Sys2Proof
end

