-- ==== Sys2Proof/Config.lean ====
section
/-!
DEFINITION. The free values: constants with no body, for what the spec leaves open. Nothing can evaluate them,
so a claim about the model holds for every value of them. Each is named in notes/assumptions.
-/
namespace Sys2Proof

/-- What an unlisted byte of memory reads as, by the memory's epoch and the address (02 R44): unspecified. -/
opaque Config.freeByte : Nat → Nat → Byte
/-- What an element of a V-engine tile register holds before anything wrote it in the frame (07 R194). -/
opaque Config.freeTile : Nat → Nat → Word
/-- Functions whose bits the spec bounds but does not give (06 R159, 07 R202): the model takes a value of these only
within that bound. -/
opaque Config.gelu : Word → Word
opaque Config.silu : Word → Word
opaque Config.sigmoid : Word → Word
opaque Config.tanh : Word → Word
opaque Config.exp : Word → Word
opaque Config.log : Word → Word
/-- The factors d of the derivative drain functions (06 Table 6.4). -/
opaque Config.dGelu : Word → Word
opaque Config.dSilu : Word → Word
opaque Config.dSigmoid : Word → Word
opaque Config.dTanh : Word → Word
/-- The lane to which a retry is traced and other choices that the spec leaves to the receiver. -/
opaque Config.freeNat : Nat → Nat
/-- The order in which a link direction takes healthy lanes into its narrow set (10 R285): by the direction and the lane. -/
opaque Config.laneOrder : Nat → Nat → Nat
/-- Slots per phase that the samplers can serve at a tick period in microseconds, with a number of samplers (12 R339). -/
opaque Config.samplingCapacity : Nat → Nat → Nat
/-- The weight of an engine cycle in a site's activity count for a rail (13 R350): by the site, the rail and the kind of the cycle. -/
opaque Config.cycleWeight : Nat → Nat → CycleKind → Nat
/-- The weight of one count of traffic on VSEAM or a rim rail (13 R350): by the unit and the rail. -/
opaque Config.trafficWeight : Nat → Nat → Nat
/-- The static model of a rail in mW (13 R350): by the unit, the rail, its voltage in mV and the junction in 0.1 degrees. -/
opaque Config.staticPower : Nat → Nat → Nat → Int → Nat
/-- The conversion-loss model of a half in mW, by the sum of its rails in mW (13 R350). -/
opaque Config.conversionLoss : Nat → Nat
/-- What the rails of a half receive in mW, by the measured input power of the half in mW: the conversion efficiency at that
load (13 R359). -/
opaque Config.converted : Nat → Nat
/-- How what a site's rails receive divides over them (13 R359): by the site, the rail and the whole. -/
opaque Config.railShare : Nat → Nat → Nat → Nat
/-- The activity count of a cluster at full activity (13 R358): by its site and the rail. -/
opaque Config.fullActivity : Nat → Nat → Nat
/-- The voltage of VCORE in mV at a frequency in MHz, from a die's fused table (13 R343): by the site and the frequency. -/
opaque Config.coreVoltage : Nat → Nat → Nat

end Sys2Proof
end

