-- ==== Sys2Proof/Machine/Number.lean ====
section
/-!
DEFINITION. Number formats, rounding and the accumulator pair (spec 03 R62 to R83), and the IEEE 754 FP32
operations of the V-engines and the U-unit (07 R202, 06 R183). A value is held exactly, as a sign, a mantissa
and a power of two, and is rounded only where a rule rounds it.
-/
namespace Sys2Proof.Machine
open Sys2Proof

/-! ### Exact values -/

/-- An exact value: NaN, a signed infinity, or (-1)^neg x m x 2^e. -/
inductive Val where
  | nan
  | inf (neg : Bool)
  | fin (neg : Bool) (m : Nat) (e : Int)
deriving DecidableEq, Repr

/-- Numeric flags in the layout of 03 Table 3.7. -/
abbrev Flags := BitVec 16
def flagNone : Flags := 0
def flagInvalid : Flags := 1
def flagOverflow : Flags := 2
def flagSaturate : Flags := 4
def flagUnderflow : Flags := 8
def flagNanIn : Flags := 16

/-- Whether a value is plus or minus zero. -/
def Val.isZero : Val → Bool
  | .fin _ m _ => m == 0
  | _ => false
/-- Whether a value is NaN. -/
def Val.isNan : Val → Bool
  | .nan => true
  | _ => false
/-- Whether a value is finite. -/
def Val.isFin : Val → Bool
  | .fin _ _ _ => true
  | _ => false
/-- Whether a value is an infinity. -/
def Val.isInf : Val → Bool
  | .inf _ => true
  | _ => false

/-- Plus zero. -/
def Val.zero : Val := .fin false 0 0

/-- A value times 2^x: the effect of a shared scale (03 R71). -/
def Val.scale (v : Val) (x : Int) : Val :=
  match v with
  | .fin s m e => .fin s m (e + x)
  | w => w

/-- The negated value; NaN stays NaN. -/
def Val.neg : Val → Val
  | .fin s m e => .fin (!s) m e
  | .inf s => .inf (!s)
  | .nan => .nan

/-- The signed mantissa of a finite value at a power of two no larger than its own. -/
def signedAt (s : Bool) (m : Nat) (e q : Int) : Int :=
  let v : Int := (m : Int) * (2 ^ (e - q).toNat : Nat)
  if s then -v else v

/-- The exact sum. Opposite infinities give NaN; an exact zero is -0 only where both terms are -0 (IEEE 754). -/
def Val.add (a b : Val) : Val :=
  match a, b with
  | .nan, _ => .nan
  | _, .nan => .nan
  | .inf s, .inf t => if s = t then .inf s else .nan
  | .inf s, _ => .inf s
  | _, .inf t => .inf t
  | .fin s m e, .fin t n f =>
    let q := min e f
    let v := signedAt s m e q + signedAt t n f q
    if v = 0 then .fin (s && t) 0 q else .fin (v < 0) v.natAbs q

/-- The exact product. Infinity times zero gives NaN. -/
def Val.mul (a b : Val) : Val :=
  match a, b with
  | .nan, _ => .nan
  | _, .nan => .nan
  | .inf s, .inf t => .inf (s != t)
  | .inf s, .fin t n _ => if n = 0 then .nan else .inf (s != t)
  | .fin s m _, .inf t => if m = 0 then .nan else .inf (s != t)
  | .fin s m e, .fin t n f => .fin (s != t) (m * n) (e + f)

/-- Order of two values that are not NaN: less than. -/
def Val.lt (a b : Val) : Bool :=
  match a, b with
  | .nan, _ => false
  | _, .nan => false
  | .inf s, .inf t => s && !t
  | .inf s, .fin _ _ _ => s
  | .fin _ _ _, .inf t => !t
  | .fin s m e, .fin t n f =>
    let q := min e f
    signedAt s m e q < signedAt t n f q

/-- Equality of value: both zeros are equal, NaN equals nothing. -/
def Val.eqv (a b : Val) : Bool :=
  match a, b with
  | .nan, _ => false
  | _, .nan => false
  | _, _ => !a.lt b && !b.lt a

/-- The magnitude of a value. -/
def Val.abs : Val → Val
  | .fin _ m e => .fin false m e
  | .inf _ => .inf false
  | .nan => .nan

/-- floor(log2) of the magnitude of a finite non-zero value. -/
def Val.log2 : Val → Int
  | .fin _ m e => (Nat.log2 m : Int) + e
  | _ => 0

/-! ### Element formats (03 Table 3.2) -/

/-- The element formats. -/
inductive Elem where
  | fp32 | bf16 | e4m3 | e5m2 | e2m3 | e3m2 | e2m1
deriving DecidableEq, Repr

/-- Exponent bits. -/
def Elem.ebits : Elem → Nat
  | .fp32 => 8 | .bf16 => 8 | .e4m3 => 4 | .e5m2 => 5 | .e2m3 => 2 | .e3m2 => 3 | .e2m1 => 2
/-- Mantissa bits. -/
def Elem.mbits : Elem → Nat
  | .fp32 => 23 | .bf16 => 7 | .e4m3 => 3 | .e5m2 => 2 | .e2m3 => 3 | .e3m2 => 2 | .e2m1 => 1
/-- Exponent bias. -/
def Elem.bias : Elem → Nat
  | .fp32 => 127 | .bf16 => 127 | .e4m3 => 7 | .e5m2 => 15 | .e2m3 => 1 | .e3m2 => 3 | .e2m1 => 1
/-- The code of the largest finite value, sign clear. -/
def Elem.maxCode : Elem → Nat
  | .fp32 => 0x7F7FFFFF | .bf16 => 0x7F7F | .e4m3 => 0x7E | .e5m2 => 0x7B | .e2m3 => 0x1F | .e3m2 => 0x1F | .e2m1 => 7
/-- The exponent of the largest normal value. -/
def Elem.emax : Elem → Int
  | .fp32 => 127 | .bf16 => 127 | .e4m3 => 8 | .e5m2 => 15 | .e2m3 => 2 | .e3m2 => 4 | .e2m1 => 2
/-- Width in bits. -/
def Elem.width (f : Elem) : Nat := 1 + f.ebits + f.mbits
/-- Whether the format has infinities. -/
def Elem.hasInf : Elem → Bool
  | .fp32 => true | .bf16 => true | .e5m2 => true | _ => false
/-- The canonical NaN, for the formats that have one (03 Table 3.3). -/
def Elem.nanCode : Elem → Nat
  | .fp32 => 0x7FC00000 | .bf16 => 0x7FC0 | .e4m3 => 0x7F | .e5m2 => 0x7E | _ => 0

/-- The value of a code (03 R63). -/
def Elem.decode (f : Elem) (code : Nat) : Val :=
  let m := code % 2 ^ f.mbits
  let ex := code / 2 ^ f.mbits % 2 ^ f.ebits
  let s := code / 2 ^ (f.mbits + f.ebits) % 2 == 1
  let top := ex == 2 ^ f.ebits - 1
  if top && f.hasInf then (if m = 0 then .inf s else .nan)
  else if f == .e4m3 && ex == 15 && m == 7 then .nan
  else if ex = 0 then .fin s m (1 - (f.bias : Int) - f.mbits)
  else .fin s (2 ^ f.mbits + m) ((ex : Int) - f.bias - f.mbits)

/-- m x 2^e over 2^q, rounded to the nearest integer, ties to even. -/
def roundShift (m : Nat) (e q : Int) : Nat :=
  if q ≤ e then m * 2 ^ (e - q).toNat
  else
    let d := 2 ^ (q - e).toNat
    let k := m / d
    let r := m % d
    if 2 * r < d then k else if 2 * r > d then k + 1 else k + k % 2

/-- The unbounded code of a finite magnitude rounded to nearest even: beyond `maxCode` where it rounds beyond
the largest finite value (03 R70). -/
def Elem.roundMag (f : Elem) (m : Nat) (e : Int) : Nat :=
  if m = 0 then 0
  else
    let emin : Int := 1 - (f.bias : Int)
    let ex := max ((Nat.log2 m : Int) + e) emin
    let q := ex - f.mbits
    let k := roundShift m e q
    if k < 2 ^ f.mbits then k
    else ((ex - emin).toNat + 1) * 2 ^ f.mbits + (k - 2 ^ f.mbits)

/-- The sign bit of a code. -/
def Elem.signBit (f : Elem) (s : Bool) : Nat := if s then 2 ^ (f.mbits + f.ebits) else 0

/-- A narrowing conversion of one value (03 R70, Table 3.5). `block` marks the elements of MX and tile-scaled
blocks. A non-finite value of a format without one is left at code 0: its block takes scale FFh (R72). -/
def Elem.encode (f : Elem) (block : Bool) (v : Val) : Nat × Flags :=
  match v with
  | .nan => (f.nanCode, flagNone)
  | .inf s =>
    if f.hasInf then (f.signBit s + (f.maxCode / 2 ^ f.mbits + 1) * 2 ^ f.mbits, flagNone)
    else (f.nanCode, flagNone)
  | .fin s m e =>
    let k := f.roundMag m e
    if k > f.maxCode then
      if f.hasInf && !block then (f.signBit s + (f.maxCode / 2 ^ f.mbits + 1) * 2 ^ f.mbits, flagOverflow)
      else (f.signBit s + f.maxCode, flagSaturate)
    else (f.signBit s + k, if k = 0 ∧ m ≠ 0 then flagUnderflow else flagNone)

/-! ### FP32 operations -/

/-- The value of an FP32 word. -/
def val32 (w : Word) : Val := Elem.fp32.decode w.toNat
/-- A value rounded to FP32. -/
def round32 (v : Val) : Word × Flags :=
  let r := Elem.fp32.encode false v
  (BitVec.ofNat 32 r.1, r.2)
/-- The canonical NaN of FP32. -/
def nan32 : Word := 0x7FC00000#32
/-- The value of a BF16 code. -/
def valBf16 (w : BitVec 16) : Val := Elem.bf16.decode w.toNat
/-- BF16 widened to FP32, which is exact (03 R69); a NaN becomes the canonical NaN. -/
def bf16To32 (w : BitVec 16) : Word := (round32 (valBf16 w)).1

/-- NAN_IN where a word is NaN. -/
def nanIn (w : Word) : Flags := if (val32 w).isNan then flagNanIn else flagNone

/-- INVALID where a NaN came from operands that are not NaN. -/
def invalidOf (operands : List Val) (r : Val) : Flags :=
  if r.isNan && !(operands.any Val.isNan) then flagInvalid else flagNone

/-- FP32 sum (07 R202). -/
def add32 (a b : Word) : Word × Flags :=
  let x := val32 a; let y := val32 b
  let v := x.add y
  let r := round32 v
  (r.1, r.2 ||| invalidOf [x, y] v)
/-- FP32 difference. -/
def sub32 (a b : Word) : Word × Flags :=
  let x := val32 a; let y := (val32 b).neg
  let v := x.add y
  let r := round32 v
  (r.1, r.2 ||| invalidOf [x, y] v)
/-- FP32 product. -/
def mul32 (a b : Word) : Word × Flags :=
  let x := val32 a; let y := val32 b
  let v := x.mul y
  let r := round32 v
  (r.1, r.2 ||| invalidOf [x, y] v)
/-- a x b + c with one rounding. -/
def fma32 (a b c : Word) : Word × Flags :=
  let x := val32 a; let y := val32 b; let z := val32 c
  let v := (x.mul y).add z
  let r := round32 v
  (r.1, r.2 ||| invalidOf [x, y, z] v)

/-- The quotient m / n with a sticky last bit, as a value: enough bits for one correct rounding. -/
def quotient (s : Bool) (m : Nat) (e : Int) (n : Nat) (f : Int) : Val :=
  let k := 64 + Nat.log2 n
  let q := m * 2 ^ k / n
  let r := m * 2 ^ k % n
  .fin s (2 * q + (if r = 0 then 0 else 1)) (e - f - k - 1)

/-- Division: 0/0 and inf/inf are invalid; a non-zero finite value over zero is an infinity with OVERFLOW (07 R202). -/
def div32 (a b : Word) : Word × Flags :=
  match val32 a, val32 b with
  | .nan, _ => (nan32, flagNone)
  | _, .nan => (nan32, flagNone)
  | .inf _, .inf _ => (nan32, flagInvalid)
  | .inf s, .fin t _ _ => round32 (.inf (s != t))
  | .fin s _ _, .inf t => round32 (.fin (s != t) 0 0)
  | .fin s m e, .fin t n f =>
    if n = 0 then
      if m = 0 then (nan32, flagInvalid)
      else ((round32 (.inf (s != t))).1, flagOverflow)
    else if m = 0 then round32 (.fin (s != t) 0 0)
    else round32 (quotient (s != t) m e n f)

/-- The integer square root by bits: the largest r below 2^n with r x r at most m. -/
def isqrtBits (m : Nat) : Nat → Nat → Nat
  | 0, r => r
  | n + 1, r =>
    let c := r + 2 ^ n
    if c * c ≤ m then isqrtBits m n c else isqrtBits m n r
/-- The integer square root. -/
def isqrt (m : Nat) : Nat := isqrtBits m (Nat.log2 m / 2 + 1) 0

/-- The square root with a sticky last bit. -/
def rootOf (m : Nat) (e : Int) : Val :=
  let odd : Bool := e % 2 != 0
  let m' := (if odd then 2 * m else m) * 2 ^ 64
  let e' := (if odd then e - 1 else e) - 64
  let r := isqrt m'
  .fin false (2 * r + (if r * r = m' then 0 else 1)) (e' / 2 - 1)

/-- Square root, correctly rounded. -/
def sqrt32 (a : Word) : Word × Flags :=
  match val32 a with
  | .nan => (nan32, flagNone)
  | .inf s => if s then (nan32, flagInvalid) else round32 (.inf false)
  | .fin s m e =>
    if m = 0 then (a, flagNone)
    else if s then (nan32, flagInvalid)
    else round32 (rootOf m e)

/-- 1 over the square root, with a sticky last bit. -/
def rsqrtOf (m : Nat) (e : Int) : Val :=
  let odd : Bool := e % 2 != 0
  let m' := if odd then 2 * m else m
  let e' := if odd then e - 1 else e
  let big := 2 ^ (2 * (64 + Nat.log2 m'))
  let r := isqrt (big / m')
  .fin false (2 * r + (if r * r * m' = big then 0 else 1)) (-(e' / 2) - (64 + Nat.log2 m') - 1)

/-- Reciprocal square root, correctly rounded. -/
def rsqrt32 (a : Word) : Word × Flags :=
  match val32 a with
  | .nan => (nan32, flagNone)
  | .inf s => if s then (nan32, flagInvalid) else round32 Val.zero
  | .fin s m e =>
    if m = 0 then ((round32 (.inf s)).1, flagOverflow)
    else if s then (nan32, flagInvalid)
    else round32 (rsqrtOf m e)

/-- FP32 one. -/
def one32 : Word := 0x3F800000#32
/-- Reciprocal, correctly rounded. -/
def recip32 (a : Word) : Word × Flags := div32 one32 a

/-- The larger; +0 is larger than -0 (07 Table 7.5). -/
def max32 (a b : Word) : Word :=
  let x := val32 a; let y := val32 b
  if x.isNan || y.isNan then nan32
  else if x.lt y then b
  else if y.lt x then a
  else if a.msb then b else a
/-- The smaller; -0 is smaller than +0. -/
def min32 (a b : Word) : Word :=
  let x := val32 a; let y := val32 b
  if x.isNan || y.isNan then nan32
  else if x.lt y then a
  else if y.lt x then b
  else if a.msb then a else b

/-! ### Products and the accumulator pair (03 R75 to R82) -/

/-- The product of two operand values, rounded to FP32 (03 R75). -/
def product (a b : Val) : Word × Flags :=
  let v := a.mul b
  let r := round32 v
  (r.1, r.2 ||| invalidOf [a, b] v)

/-- A word with -0 turned into +0 (03 R80). -/
def plusZero (w : Word) : Word := if (val32 w).isZero then 0 else w

/-- S of a pair (03 Table 3.6). -/
def pairS (p : DWord) : Word := p.extractLsb' 0 32
/-- C of a pair. -/
def pairC (p : DWord) : Word := p.extractLsb' 32 32
/-- The pair of S and C. -/
def mkPair (s c : Word) : DWord := c ++ s

/-- The rounding error of t = a + b, exact by construction (03 R79). -/
def sumError (a b t : Word) : Word :=
  let x := val32 a; let y := val32 b
  if x.abs.lt y.abs then (add32 (sub32 b t).1 a).1 else (add32 (sub32 a t).1 b).1

/-- A product added into a pair (03 R79). -/
def accumulate (pr : DWord) (p : Word) : DWord × Flags :=
  let s := pairS pr; let c := pairC pr
  let x := val32 s; let y := val32 p
  if x.isNan || y.isNan then (mkPair nan32 0, flagNone)
  else if x.isInf || y.isInf then
    let r := add32 s p
    (mkPair r.1 0, r.2 &&& flagInvalid)
  else
    let t := (add32 s p).1
    if (val32 t).isInf then (mkPair t 0, flagOverflow)
    else (mkPair (plusZero t) (add32 c (sumError s p t)).1, flagNone)

/-- Two pairs merged (03 R81). -/
def mergePair (a b : DWord) : DWord × Flags :=
  let x := val32 (pairS a); let y := val32 (pairS b)
  if x.isNan || y.isNan then (mkPair nan32 0, flagNone)
  else if x.isInf || y.isInf then
    let v := x.add y
    if v.isNan then (mkPair nan32 0, flagInvalid) else (mkPair (round32 v).1 0, flagNone)
  else
    let t := (add32 (pairS a) (pairS b)).1
    if (val32 t).isInf then (mkPair t 0, flagOverflow)
    else
      let e := sumError (pairS a) (pairS b) t
      (mkPair (plusZero t) (add32 (add32 (pairC a) (pairC b)).1 e).1, flagNone)

/-- The exact value S + C of a pair; an exact zero is +0 (03 R80, R82). -/
def pairVal (p : DWord) : Val :=
  match val32 (pairS p) with
  | .fin s m e =>
    let v := (Val.fin s m e).add (val32 (pairC p))
    if v.isZero then Val.zero else v
  | v => v

/-! ### Formats (03 R62) -/

/-- The element type of a format code, for the codes that have one. -/
def fmtElem (c : BitVec 4) : Option Elem :=
  match c.toNat with
  | 0 => some .fp32
  | 1 => some .bf16
  | 2 => some .e4m3
  | 3 => some .e5m2
  | 4 => some .e4m3
  | 5 => some .e5m2
  | 6 => some .e2m3
  | 7 => some .e3m2
  | 8 => some .e2m1
  | 9 => some .e4m3
  | _ => none
/-- Whether a format has a shared scale: codes 0100b to 1001b (05 R131). -/
def fmtScaled (c : BitVec 4) : Bool := 4 ≤ c.toNat && c.toNat ≤ 9
/-- Whether a format is one of the MX formats, 0100b to 1000b. -/
def fmtMx (c : BitVec 4) : Bool := 4 ≤ c.toNat && c.toNat ≤ 8
/-- Bytes of a row of a 32 x 32 layout block (05 Table 5.1). -/
def fmtRowBytes (c : BitVec 4) : Nat :=
  match c.toNat with
  | 0 => 128
  | 1 => 64
  | 6 => 24
  | 7 => 24
  | 8 => 16
  | 10 => 256
  | _ => 32
/-- Bytes of a layout block. -/
def fmtBlockBytes (c : BitVec 4) : Nat := 32 * fmtRowBytes c
/-- Legal as a matrix operand (03 Table 3.4). -/
def fmtOperand (c : BitVec 4) : Bool := 1 ≤ c.toNat && c.toNat ≤ 9
/-- Legal as a drain output. -/
def fmtDrain (c : BitVec 4) : Bool := c.toNat ≤ 10
/-- Legal as an accumulator preload. -/
def fmtPreload (c : BitVec 4) : Bool := c.toNat == 0 || c.toNat == 10
/-- Legal as V-engine load and store. -/
def fmtVector (c : BitVec 4) : Bool := c.toNat ≤ 9
/-- A legal pair of matrix operands (03 R68). -/
def fmtPair (a b : BitVec 4) : Bool :=
  fmtOperand a && fmtOperand b && ((a.toNat == 1) == (b.toNat == 1))

/-- The exponent of an E8M0 scale code; NaN for FFh (03 R64). -/
def scaleExp (x : Byte) : Option Int := if x = 0xFF#8 then none else some ((x.toNat : Int) - 127)

/-- The value of an element under its block's scale code (03 R71, R73). -/
def scaledVal (f : Elem) (x : Byte) (code : Nat) : Val :=
  match scaleExp x with
  | none => .nan
  | some k => (f.decode code).scale k

/-- The largest magnitude among the finite values, as a value. -/
def amaxOf (vs : List Val) : Val :=
  vs.foldl (fun a v => match v with
    | .fin _ m e => if a.lt (.fin false m e) then .fin false m e else a
    | _ => a) Val.zero

/-- The exponent x that R72 derives for a block, from the values rounded to FP32. -/
def deriveExp (f : Elem) (rounded : List Val) : Int :=
  let a := amaxOf rounded
  if a.isZero then 0 else max (a.log2 - f.emax) (-127)

/-- A block converted to an element type with a shared scale (03 R72): the scale code, the element codes, and
the flags. `rounded` are the FP32 roundings that form amax, `exact` the values that are rounded once (03 R82). -/
def encodeBlock (f : Elem) (rounded exact : List Val) : Byte × List Nat × Flags :=
  let special := rounded.any (fun v => !v.isFin)
  if special && (f == .e2m3 || f == .e3m2 || f == .e2m1) then
    (0xFF#8, exact.map (fun _ => 0), flagNone)
  else
    let x := deriveExp f rounded
    let cs := (rounded.zip exact).map (fun p =>
      f.encode true (if p.1.isFin then p.2.scale (-x) else p.1))
    (BitVec.ofInt 8 (x + 127), cs.map Prod.fst, cs.foldl (fun a c => a ||| c.2) flagNone)

/-- A product as a matrix engine forms it, with the flags of reading its operands (03 R75, R83). -/
def readFlags (v : Val) : Flags := if v.isNan then flagNanIn else flagNone

end Sys2Proof.Machine
end

