-- ==== Sys2Proof/Machine/Functions.lean ====
section
/-!
DEFINITION. The functions of the drains, the V-engines and the samplers (spec 06 R158, R159; 07 R202; 12 R337). A function
that the spec bounds and does not give bit by bit is a free value within its bound of R159; the bound is judged on the
exact function, in fixed point of 400 fraction bits.
-/
namespace Sys2Proof.Machine
open Sys2Proof

/-! ### Exact functions in fixed point -/

/-- Fraction bits. -/
def fixBits : Nat := 400
/-- One. -/
def fixOne : Int := 2 ^ fixBits
/-- A product. -/
def fixMul (a b : Int) : Int := a * b / fixOne
/-- A quotient. -/
def fixDiv (a b : Int) : Int := a * fixOne / b
/-- A finite FP32 value; infinities and NaN, which no caller passes, are 0. -/
def fixOf (w : Word) : Int :=
  match val32 w with
  | .fin s m e => signedAt s m e (-(fixBits : Int))
  | _ => 0
/-- A number in fixed point as a value. -/
def fixVal (x : Int) : Val := .fin (x < 0) x.natAbs (-(fixBits : Int))

/-- n terms of 1 + r/i (1 + r/(i + 1) (1 + ...)). -/
def expTerms (r : Int) : Nat → Nat → Int
  | 0, _ => fixOne
  | n + 1, i => fixOne + fixMul r (expTerms r n (i + 1)) / i
/-- n squarings. -/
def squarings : Nat → Int → Int
  | 0, x => x
  | n + 1, x => squarings n (fixMul x x)
/-- The largest exponent that matters: beyond it exp lies beyond every FP32 value, or below 2^-400. -/
def fixFar : Int := 1000 * fixOne
/-- e to a power that is not negative: the series at x/4096, squared twelve times. -/
def expUp (x : Int) : Int := squarings 12 (expTerms (x / 4096) 80 1)
/-- e to a power. -/
def fixExp (x : Int) : Int :=
  let x := max (-fixFar) (min fixFar x)
  if 0 ≤ x then expUp x else fixDiv fixOne (expUp (-x))

/-- n terms of y/i + y^3/(i + 2) + ..., with `sq` the square of y. -/
def atanhTerms (sq : Int) : Nat → Nat → Int → Int
  | 0, _, _ => 0
  | n + 1, i, y => y / i + atanhTerms sq n (i + 2) (fixMul y sq)
/-- Twice the inverse hyperbolic tangent of a/b: the logarithm of (b + a)/(b - a). -/
def logRatio (a b : Int) : Int :=
  let y := fixDiv a b
  2 * atanhTerms (fixMul y y) 140 1 y
/-- The natural logarithm of 2. -/
def fixLn2 : Int := logRatio 1 3
/-- The natural logarithm of a value above zero: x = f 2^k with f from 3/4 to 3/2. -/
def fixLog (w : Word) : Int :=
  match val32 w with
  | .fin _ m e =>
    let n := Nat.log2 m
    let low := 2 * m < 3 * 2 ^ n
    let one : Int := if low then 2 ^ n else 2 ^ (n + 1)
    logRatio (m - one) (m + one) + (e + n + (if low then 0 else 1)) * fixLn2
  | _ => 0

/-- 1 / (1 + e^-x). -/
def fixSigmoid (x : Int) : Int := fixDiv fixOne (fixOne + fixExp (-x))
/-- Twice the argument of GELU's tanh: 2 x 0.7978845608 (v + 0.044715 v^3). -/
def geluArg (v : Int) : Int := 2 * 7978845608 * (v + 44715 * fixMul v (fixMul v v) / 1000000) / 10000000000
/-- Twice the slope of that argument. -/
def geluSlope (v : Int) : Int := 2 * 7978845608 * (fixOne + 3 * 44715 * fixMul v v / 1000000) / 10000000000
/-- The slope of the sigmoid at a value of it. -/
def sigmoidSlope (y : Int) : Int := fixMul y (fixOne - y)

/-- GELU, SILU and TANH (06 Table 6.4), by 1 + tanh u = 2 / (1 + e^-2u). -/
def fixGelu (v : Int) : Int := fixMul v (fixSigmoid (geluArg v))
def fixSilu (v : Int) : Int := fixMul v (fixSigmoid v)
def fixTanh (v : Int) : Int := 2 * fixSigmoid (2 * v) - fixOne
/-- The derivatives of GELU, SILU, SIGMOID and TANH. Where the sigmoid is 0 or 1 to 400 bits, its slope is 0. -/
def fixDGelu (v : Int) : Int :=
  let y := fixSigmoid (geluArg v)
  y + (if fixFar ≤ (geluArg v).natAbs then 0 else fixMul (fixMul v (geluSlope v)) (sigmoidSlope y))
def fixDSilu (v : Int) : Int :=
  let y := fixSigmoid v
  y + (if fixFar ≤ v.natAbs then 0 else fixMul v (sigmoidSlope y))
def fixDSigmoid (v : Int) : Int := sigmoidSlope (fixSigmoid v)
def fixDTanh (v : Int) : Int := fixOne - fixMul (fixTanh v) (fixTanh v)

/-! ### The bound of R159 -/

/-- The bound about an exact result: 2 units in the last place of its FP32 rounding or 2^-140, the larger; one more
unit of 2^-200 covers the fixed point. -/
def fixBound (x : Int) : Int :=
  let top : Int := (Nat.log2 (x.natAbs + x.natAbs / 2 ^ 24) : Int) - fixBits
  2 ^ (fixBits + max (top - 22) (-140)).toNat + 2 ^ (fixBits - 200)

/-- Whether an FP32 word lies within the bound of an exact result: by value, or as the infinity to which a value within
the bound rounds. -/
def withinBound (x : Int) (w : Word) : Bool :=
  match val32 w with
  | .nan => false
  | .inf s => (round32 (fixVal (if x < 0 then x - fixBound x else x + fixBound x))).1 == w && s == decide (x < 0)
  | .fin _ _ _ => (fixOf w - x).natAbs ≤ fixBound x

/-- A free function of finite operands within its bound, with its limits at the infinities. -/
def limited (g : Word → Word) (exact : Int → Int) (atPos atNeg : Word) (v : Word) : Word :=
  match val32 v with
  | .nan => nan32
  | .inf s => if s then atNeg else atPos
  | .fin _ _ _ =>
    let x := exact (fixOf v)
    if withinBound x (g v) then g v else (round32 (fixVal x)).1

/-- exp correctly rounded, as every operation of a sampler is (12 R337). -/
def expWord (w : Word) : Word :=
  match val32 w with
  | .nan => nan32
  | .inf s => if s then 0 else 0x7F800000#32
  | .fin _ _ _ => (round32 (fixVal (fixExp (fixOf w)))).1

/-! ### Drain functions (06 R158, R159) -/

/-- v x 2^-6, rounded. -/
def leaky32 (v : Word) : Word × Flags := round32 ((val32 v).scale (-6))

/-- Plus infinity in FP32. -/
def inf32 : Word := 0x7F800000#32
/-- Minus infinity in FP32. -/
def ninf32 : Word := 0xFF800000#32
/-- 2^-6 in FP32. -/
def leak32 : Word := 0x3C800000#32
/-- Minus one in FP32. -/
def none32 : Word := 0xBF800000#32

/-- The forward functions, codes 0000b to 0110b of Table 6.4. NaN gives the canonical NaN and sets NAN_IN,
but for IDENT in a drain, which only converts. -/
def forwardFn (code : Nat) (v : Word) : Word × Flags :=
  if code = 0 then (if (val32 v).isNan then nan32 else v, nanIn v)
  else if (val32 v).isNan then (nan32, flagNanIn)
  else match code with
    | 1 => (if Val.zero.lt (val32 v) then v else 0, flagNone)
    | 2 => if Val.zero.lt (val32 v) then (v, flagNone) else leaky32 v
    | 3 => (limited Config.gelu fixGelu inf32 0 v, flagNone)
    | 4 => (limited Config.silu fixSilu inf32 0 v, flagNone)
    | 5 => (limited Config.sigmoid fixSigmoid one32 0 v, flagNone)
    | 6 => (limited Config.tanh fixTanh one32 none32 v, flagNone)
    | _ => (v, flagNone)

/-- The factor d of a derivative function at z (Table 6.4). -/
def derivFactor (code : Nat) (z : Word) : Word :=
  match code with
  | 9 => if Val.zero.lt (val32 z) then one32 else 0
  | 10 => if Val.zero.lt (val32 z) then one32 else leak32
  | 11 => limited Config.dGelu fixDGelu one32 0 z
  | 12 => limited Config.dSilu fixDSilu one32 0 z
  | 13 => limited Config.dSigmoid fixDSigmoid 0 0 z
  | _ => limited Config.dTanh fixDTanh 0 0 z

/-- A derivative function: v x d, one FP32 multiplication; NaN in v or z sets NAN_IN (06 R159). -/
def derivFn (code : Nat) (v z : Word) : Word × Flags :=
  if (val32 v).isNan || (val32 z).isNan then (nan32, flagNanIn)
  else mul32 v (derivFactor code z)

/-- Whether a function code is a derivative. -/
def isDeriv (code : Nat) : Bool := 9 ≤ code && code ≤ 14
/-- Whether a function code is a forward function. -/
def isForward (code : Nat) : Bool := code ≤ 6

end Sys2Proof.Machine
end

