-- ==== Sys2Proof/Machine/Table.lean ====
section
/-!
DEFINITION. Sparse tables: what a list of numbered records holds, kept in rising key order.
-/
namespace Sys2Proof.Machine

/-- A sparse table: pairs of a key and a record, in strictly rising key order. -/
abbrev Tbl (α : Type) := List (Nat × α)

/-- The record under a key, if the table holds one. -/
def tfind {α : Type} (t : Tbl α) (k : Nat) : Option α :=
  match t with
  | [] => none
  | (a, v) :: r => if a = k then some v else tfind r k

/-- The record under a key, or the default of an unlisted key. -/
def tget {α : Type} (d : α) (t : Tbl α) (k : Nat) : α := (tfind t k).getD d

/-- The table with one record set, in its place in the key order. -/
def tset {α : Type} (t : Tbl α) (k : Nat) (v : α) : Tbl α :=
  match t with
  | [] => [(k, v)]
  | (a, w) :: r =>
    if k < a then (k, v) :: (a, w) :: r
    else if k = a then (k, v) :: r
    else (a, w) :: tset r k v

/-- The table without one key. -/
def terase {α : Type} (t : Tbl α) (k : Nat) : Tbl α :=
  match t with
  | [] => []
  | (a, w) :: r => if a = k then terase r k else (a, w) :: terase r k

/-- The table with one record changed by a function, from the default where unlisted. -/
def tmod {α : Type} (d : α) (t : Tbl α) (k : Nat) (f : α → α) : Tbl α := tset t k (f (tget d t k))

/-- Every record changed. -/
def tmap {α β : Type} (t : Tbl α) (f : Nat → α → β) : Tbl β := t.map (fun p => (p.1, f p.1 p.2))

end Sys2Proof.Machine
end

