-- ==== Sys2Proof/Machine/State.lean ====
section
/-!
DEFINITION. The state of the block as plain data, its fault and refusal reasons, and the state right after
reset: the 48 V input present, before the power-good of either half. Every object stands at the Default column
of its table. A value that the spec does not give is named in notes/assumptions/3.md (DESIGN CHOICE, unsafe).
-/
namespace Sys2Proof.Machine
open Sys2Proof

/-! ### Messages that leave the module -/

/-- What a dictionary access is answered with (16 R422). -/
inductive Reply where
  | ok
  | data (bytes : List Byte)
  | abort (code : Word)
deriving DecidableEq, Repr

/-- One answered dictionary access. -/
structure Answer where
  party : Party
  index : Nat
  sub   : Nat
  reply : Reply
deriving DecidableEq, Repr

/-- NMT states of a CAN port (16 R417). -/
inductive NmtState where
  | initialising | preOperational | operational
deriving DecidableEq, Repr, Inhabited

/-- A message sent on a CAN port. -/
inductive CanMsg where
  | heartbeat (h : Half) (node : Nat) (st : NmtState)
  | tpdo1 (h : Half) (node : Nat) (bytes : BitVec 96)
  | emcy (h : Half) (node : Nat) (errorCode : BitVec 16) (errorRegister : Byte) (record : BitVec 128)
deriving DecidableEq, Repr

/-- What leaves on the fabric: a codeword on a lane of a port; and, before the codewords that hold it, each packet that a
port begins. `health` says what the health updates of a port, whose format the spec does not give, report (log entry 73). -/
inductive FabOut where
  | codeword (port lane : Nat) (control : BitVec 100) (words : List (BitVec 72))
  | packet (port : Nat) (pkt : FabPacket)
  | health (port : Nat) (retired : Bool)
deriving DecidableEq, Repr

/-- The IPv6 header of what an Ethernet-mode port sends, with the link-layer destination of its frame (12 Table 12.2). -/
structure Ip6Out where
  mac          : BitVec 48
  src          : BitVec 128
  dst          : BitVec 128
  hopLimit     : Nat
  trafficClass : Nat
  flowLabel    : Nat
deriving DecidableEq, Repr

/-- What leaves on an Ethernet-mode port (12 R329, R330): a UDP datagram, an advertisement of an address and the link-layer address
of its port, or an echo reply. -/
inductive UdpOut where
  | datagram (port : Nat) (ip : Ip6Out) (srcPort dstPort checksum : BitVec 16) (payload : List Byte)
  | advertisement (port : Nat) (ip : Ip6Out) (target : BitVec 128) (mac : BitVec 48)
  | echoReply (port : Nat) (ip : Ip6Out) (data : List Byte)
deriving DecidableEq, Repr

/-- Every message sent so far, oldest first, by the door it left through. -/
structure Out where
  sdo : List Answer
  can : List CanMsg
  fab : List FabOut
  udp : List UdpOut
deriving DecidableEq, Repr

/-! ### Identity and fuses (00 R3, 14 R390, 16 Table 16.6, 17 R437) -/

/-- The variants (00 Table 0.1). -/
inductive Variant where
  | x | m | q
deriving DecidableEq, Repr, Inhabited

/-- Values fixed at manufacture or by strap. -/
structure Fuses where
  variant     : Variant
  panelSerial : List Byte
  vendorId    : Word
  siteRev     : Tbl Byte
  rimRev      : Tbl Byte
  maltRev     : Tbl Byte
  features    : Tbl Word
  compat      : BitVec 16
  mac         : Tbl (BitVec 48)
  rootHash    : List Byte
  idSecretNorth : List Byte
  idSecretSouth : List Byte
  certNorth   : List Byte
  certSouth   : List Byte
  nidNorth    : Bool
  nidSouth    : Bool
  minSvnNorth : Nat
  minSvnSouth : Nat
deriving DecidableEq, Repr

/-! ### Start-up, images and the defect list (14) -/

/-- How far one half's step 1 has come (14 R371, R381). -/
inductive BootState where
  | off | ready | romOnly
deriving DecidableEq, Repr, Inhabited

/-- Start-up progress and its objects (14 Table 14.11). -/
structure StartUp where
  ready         : BitVec 32
  step          : Nat
  timeMs        : Nat
  lastGood      : Time
  firstGood     : Time
  northBoot     : BootState
  southBoot     : BootState
  stacksReady   : BitVec 16
  startCount    : Word
  outsideBound  : Word
  tested        : List Nat
  portsDone     : List Nat
  notAdmitted   : Byte
  featureMask   : Word
  found         : List DWord
deriving DecidableEq, Repr

/-- One image of a set (17 Table 17.4). -/
structure ImageEntry where
  type     : Byte
  rev      : Byte
  length   : Nat
  firstSeq : Nat
  digest   : List Byte
deriving DecidableEq, Repr

/-- A verified image set (17 R440). -/
structure ImageSet where
  manifest : List Byte
  setver   : Word
  svn      : Nat
  advance  : Bool
  images   : List ImageEntry
  compat   : List (BitVec 32)
  chunks   : List (List Byte)
  payloads : List (List Byte)
deriving DecidableEq, Repr

/-- A flash bank (14 R380). -/
inductive Bank where
  | empty
  | valid (s : ImageSet)
  | invalid
deriving DecidableEq, Repr

/-- A cluster's receiver of a broadcast (14 R387 to R389). -/
structure Receiver where
  bitmap  : List Nat
  chunks  : Tbl (List Byte)
  ok      : Bool
  missing : List (Nat × Nat)
  passes  : Nat
deriving DecidableEq, Repr

/-- Image objects and the broadcast in progress (14 Table 14.11). -/
structure Images where
  bootBank    : Byte
  bootSouth   : Byte
  runningBank : Byte
  runSouth    : Byte
  northA      : Bank
  northB      : Bank
  southA      : Bank
  southB      : Bank
  running     : Option ImageSet
  fallbacks   : Word
  progress    : Word
  activation  : Byte
  actState    : Byte
  session     : Word
  active      : Bool
  rounds      : Nat
  receivers   : Tbl Receiver
  oldSet      : Option ImageSet
  verifyFails : Word
  lastFail    : Byte
deriving DecidableEq, Repr

/-- A clear request held for the next start-up (14 R379). -/
structure ClearRequest where
  kindMask : Word
  entries  : List DWord
deriving DecidableEq, Repr

/-- The defect list (14 R376 to R379). -/
structure DefectList where
  entries    : List DWord
  generation : Word
  northCopy  : List DWord
  southCopy  : List DWord
  northBad   : Bool
  southBad   : Bool
  clear      : Option ClearRequest
  clearState : Byte
deriving DecidableEq, Repr

/-- The attestation objects of one maltster (17 R446). -/
structure Attest where
  nonce  : List Byte
  state  : Byte
  built  : List Byte
  report : List Byte
  signed : Word
deriving DecidableEq, Repr

/-! ### The crown (15 R407 to R411) -/

/-- The crown as each maltster sees it, and the inter-half link. -/
structure Crown where
  holder     : Option Half
  epochNorth : Word
  epochSouth : Word
  lease      : BitVec 16
  peerAck    : Bool
  witNorth   : Bool
  witSouth   : Bool
  claimNorth : Option Word
  claimSouth : Option Word
  renewal    : Option Word
  withheld   : List Half
  takes      : Word
  stops      : Word
  flashEpoch : Word
deriving DecidableEq, Repr

/-! ### The field network and the dictionary (16) -/

/-- The CAN ports (16 R417, R418, R420, R435). -/
structure CanNet where
  nmtNorth   : NmtState
  nmtSouth   : NmtState
  baseNode   : Byte
  dataRate   : Byte
  nodeNorth  : Byte
  nodeSouth  : Byte
  emcyNorth  : List (BitVec 128)
  emcySouth  : List (BitVec 128)
  dropped    : Word
  errorReg   : Byte
  heartbeat  : BitVec 16
  seqNorth   : Word
  seqSouth   : Word
  flashBase  : Byte
deriving DecidableEq, Repr

/-- The staging side of one staged record: the fields written but not in effect, and the state that sub-index
01h reads while it is neither 00h nor 04h (16 R424). -/
structure Staging where
  fields  : Tbl (List Byte)
  pending : Bool
  refused : Bool
  late    : Bool
deriving DecidableEq, Repr

/-- A segmented USDO transfer (16 R423). -/
structure Transfer where
  party : Party
  index : Nat
  sub   : Nat
  write : Bool
  data  : List Byte
  pos   : Nat
deriving DecidableEq, Repr

/-- A kept management response (16 R434). -/
structure KeptReply where
  smod  : BitVec 12
  req   : BitVec 8
  txn   : BitVec 15
  time  : Time
  pkt   : FabPacket
deriving DecidableEq, Repr

/-- A command that acts on both halves (13 R344): a power state, or a commit, at the next tick or at once, written at
a time. -/
inductive CrossCmd where
  | power (state : Byte)
  | commit (rec : StagedRec) (atTick : Bool) (t : Time)
deriving DecidableEq, Repr

/-- A command that waits for the other maltster's answer: the epoch that it carries, who wrote it, and the management
request that is still to be answered. -/
structure CrossEntry where
  cmd   : CrossCmd
  epoch : Word
  party : Party
  req   : Option MgmtRequest
deriving DecidableEq, Repr

/-- The dictionary's own state. -/
structure Dict where
  staging    : Tbl Staging
  transfers  : List Transfer
  owner      : Option Party
  ownerSince : Word
  window     : DWord
  kept       : List KeptReply
  cross      : List CrossEntry
  ordered    : List MgmtRequest
deriving DecidableEq, Repr

/-! ### Jobs (16 R432) -/

/-- A carry region (02 Table 2.5). -/
structure CarryRegion where
  base   : Nat
  length : Nat
  stack  : Bool
  mash   : Bool
deriving DecidableEq, Repr

/-- A stream entry (04 Table 4.2); `lines` is the length in lines. -/
structure StreamEntry where
  baseLine : Nat
  lines    : Nat
  entryPc  : Nat
  context  : Nat
  task     : Nat
deriving DecidableEq, Repr

/-- A preload entry (04 Table 4.2a); `lines` is the number of lines. -/
structure Preload where
  src   : Nat
  dst   : Nat
  lines : Nat
deriving DecidableEq, Repr

/-- A backward descriptor (06 Table 6.5); `lines` is the length of the mash region in lines. -/
structure BackDesc where
  region : Nat
  lines  : Nat
  task   : Nat
  mfmt   : BitVec 4
  pf     : Nat
  spill  : Nat
  se     : Nat
  lim    : Nat
  h      : Nat
  init   : BitVec 2
  wlen   : Nat
deriving DecidableEq, Repr

/-- A node of a combining tree (10 Table 10.4, 11 R318). -/
structure TreeNode where
  host  : Nat
  rim   : Nat
  left  : Nat
  right : Nat
  circ  : Nat
deriving DecidableEq, Repr

/-- A combining tree, on the panel (10 Table 10.4) or across modules (11 R318). A contributor is a logical
cluster, its module and the circuit to its parent; the last two are 0 on the panel. -/
structure Tree where
  dcl     : Nat
  first   : Nat
  lines   : Nat
  number  : Nat
  contrib : List (Nat × Nat × Nat)
  nodes   : List TreeNode
deriving DecidableEq, Repr

/-- A fabric ring (11 Table 11.9): its number, and each member's module ID and rim die. -/
structure Ring where
  number  : Nat
  members : List (Nat × Nat)
deriving DecidableEq, Repr

/-- One leg of a circuit (11 Table 11.11): ring, entry and exit member. -/
structure Leg where
  ring : Nat
  inn  : Nat
  out  : Nat
deriving DecidableEq, Repr

/-- A circuit (11 Table 11.11). -/
structure Circuit where
  number : Nat
  modA   : Nat
  modB   : Nat
  weight : Nat
  legs   : List Leg
deriving DecidableEq, Repr

/-- The serving plan (12 Table 12.7). -/
structure ServingPlan where
  batch   : Nat
  slots   : Nat
  tok     : Nat
  chunk   : Nat
  logit   : Nat
  lfmt    : BitVec 4
  vocab   : Nat
  ptab    : Nat
  flist   : Nat
  nf      : Nat
  home    : Nat
  tpp     : Nat
  eos     : Word
  svc     : Nat
  batcher : Nat
  nmin    : Nat
deriving DecidableEq, Repr

/-- A parsed job descriptor (16 Table 16.13). -/
structure JobPlan where
  placement : List Nat
  carry     : List CarryRegion
  streams   : Tbl (List StreamEntry)
  back      : Tbl (List BackDesc)
  trees     : List Tree
  rings     : List Ring
  circuits  : List Circuit
  fabTrees  : List Tree
  members   : List Nat
  plan      : Option ServingPlan
  preload   : List Preload
deriving DecidableEq, Repr

/-- Who placed the held job (16 2803h:04h). -/
inductive Placer where
  | submitter | service
deriving DecidableEq, Repr, Inhabited

/-- The life of a job (16 2803h:03h, 12 3802h:03h). -/
inductive JobState where
  | none | starting | running | ending
deriving DecidableEq, Repr, Inhabited

/-- The job objects (16 Table 16.10, 15 Table 15.8). -/
structure Job where
  descriptor  : List Byte
  svcDesc     : List Byte
  control     : Byte
  svcControl  : Byte
  state       : JobState
  placedBy    : Option Placer
  plan        : Option JobPlan
  refusal     : Word
  copiesDone  : Bool
  endAtCommit : Bool
  revokeOwner : Bool
  endReason   : Byte
  endFault    : Byte
  endFlags    : BitVec 16
  endFrames   : DWord
  takeovers   : Word
  recoveries  : Word
  longest     : Word
  faultAt     : Option Time
deriving DecidableEq, Repr

/-! ### The tick (02) -/

/-- The values of 2800h in effect (02 Table 2.8). -/
structure TickConfig where
  period   : BitVec 16
  source   : Byte
  beaconIn : Byte
  relay    : Word
  ride     : Byte
  holdLim  : Byte
  voteWait : Byte
deriving DecidableEq, Repr

/-- Where the tick stands: between edges, collecting the census, or waiting for votes with the module's own
outcome (02 Table 2.3). -/
inductive TickPhase where
  | idle
  | census
  | voting (own : Vote)
deriving DecidableEq, Repr, Inhabited

/-- A recovery in ride-through mode (15 Table 15.3). `takeover` holds the failed logical chiplet, the failed
site and the slate that waits to be released, or that waits for its reload. -/
structure Takeover where
  chiplet  : Nat
  failed   : Nat
  slate    : Nat
  released : Bool
deriving DecidableEq, Repr

/-- The frame's standing with respect to recovery: `since` is the time of the latest fault, where known, and `edges`
the edges lost since. -/
structure Recovery where
  active    : Bool
  takeovers : List Takeover
  repeatAt  : List Nat
  since     : Option Time
  edges     : Nat
deriving DecidableEq, Repr

/-- The tick and the frame counters (02 R36, R58). -/
structure Tick where
  cfg       : TickConfig
  on        : Bool
  count     : DWord
  seq       : DWord
  committed : DWord
  srcState  : Byte
  edgeFault : Word
  held      : Word
  lost      : Word
  abandoned : Word
  drainNs   : Word
  stale     : Word
  hopsIn    : Nat
  expected  : Option Time
  inWindow  : Nat
  flywheels : Nat
  phase     : TickPhase
  votes     : List (BitVec 12 × Vote)
  undrained : List UnitId
  holds     : Nat
  overrun   : Bool
  issueOn   : Bool
  lossDue   : Bool
  recovery  : Recovery
deriving DecidableEq, Repr

/-! ### The panel (01) -/

/-- Site states (01 Table 1.2). -/
inductive SiteState where
  | running | slateIdle | forwardOnly | dark | computeReset
deriving DecidableEq, Repr, Inhabited

/-- What one site holds beyond its state (01 Table 1.10; 05 Table 5.11; 08 Table 8.10; 10 Table 10.8; 13 Table
13.8; 14 Table 14.7). `cut`: a route fault named it as its destination (10 R274). -/
structure SiteRec where
  state       : SiteState
  logical     : Option Nat
  repair      : Tbl DWord
  checks      : Word
  rowCounts   : List (Nat × Nat × Nat)
  colCounts   : List (Nat × Nat × Nat)
  start       : Word
  resetReq    : Byte
  resets      : Word
  viaTakeover : Bool
  seamReq     : Byte
  hits        : DWord
  misses      : DWord
  cacheFix    : Word
  refetch     : Word
  padFix      : DWord
  padErr      : Word
  starved     : DWord
  combined    : DWord
  sunk        : Word
  fallbacks   : Word
  unreach     : Word
  cut         : Bool
  vcore       : BitVec 16
  iCore       : Word
  iSram       : Word
  iSeam       : Word
  estPower    : BitVec 16
  junction    : Int
  droops      : Word
  bubble      : Nat
  droopRate   : Nat
deriving DecidableEq, Repr

/-- A remap table entry (01 Table 1.9). -/
structure RemapEntry where
  site  : BitVec 7
  valid : Bool
  subst : Bool
deriving DecidableEq, Repr

/-- Sites and numbering (01). `remap` is the table that 2C02h reports; `copies` holds the copy of each source of packets:
the routers of sites 0 to 71, and rim die n as unit 72 + n (01 R28). -/
structure Topo where
  sites    : Tbl SiteRec
  slateCol : List Nat
  remap    : Tbl RemapEntry
  copies   : Tbl (Tbl RemapEntry)
  chiplets : Nat
  remapGen : Word
deriving DecidableEq, Repr

/-! ### Clusters (03 to 07, 09) -/

/-- An instruction in an engine queue: its words, its task, its PC and the index registers read when it issued. -/
structure QInstr where
  ext  : Option IWord
  word : IWord
  task : Nat
  pc   : Nat
  idx  : List Word
deriving DecidableEq, Repr

/-- An open accumulator slot: its group and its 128 x 128 pairs, row by row (05 R124). -/
structure Slot where
  group : Nat
  pairs : List DWord
deriving DecidableEq, Repr

/-- An instruction that has started: the ordinal of the last bulk write its engine had issued by then, the work still
outstanding (reads not yet returned), and the slot watched by diagnostic mode as it stood before (09 R262). -/
structure InFlight where
  instr  : QInstr
  upTo   : Nat
  reads  : Nat
  before : Option Slot
deriving DecidableEq, Repr

/-- One engine of a cluster. `met`: the wait of the instruction at the head of its queue has been met (09 R246). -/
structure EngineRec where
  queue    : List QInstr
  flight   : List InFlight
  slots    : Tbl Slot
  image    : Tbl Nat
  tiles    : Tbl (List Word)
  slice    : Option (List (BitVec 16))
  issued   : Nat
  unacked  : List (Nat × Nat)
  overflow : Bool
  met      : Bool
  products : DWord
  gated    : DWord
  stalls   : DWord
  misses   : DWord
  work     : DWord
  relays   : Nat
deriving DecidableEq, Repr

/-- A sync object (09 R244, Table 9.4a). `waiters` holds engine codes, 11 for the sequencer, with the units
waited for, in the order in which they began to wait. -/
structure SyncObj where
  value   : BitVec 16
  ovf     : Bool
  unf     : Bool
  last    : Word
  waiters : List (Nat × Nat)
deriving DecidableEq, Repr

/-- A signal on its way to an object (09 R245, R249, R254). -/
structure Signal where
  srcK   : Nat
  srcE   : Nat
  dstK   : Nat
  task   : Nat
  obj    : Nat
  op     : Nat
  amount : Nat
  circ   : Nat
  unf    : Bool
  relay  : Option Nat
  remote : Bool
deriving DecidableEq, Repr

/-- One seam link crossed by a packet: the direction's key, whether it travels in turn set R, and whether on VC1 (10 R270,
R272). -/
structure Hop where
  key      : Nat
  rowFirst : Bool
  vc1      : Bool
deriving DecidableEq, Repr

/-- Where a packet of an on-chip network stands: its unit, its destination unit and local cluster, the hops still to go, and
whether it waits at its source for a direction that is closed; the virtual channel in whose buffer it stands, and its
age (10 R273, R274, R276). -/
structure Transit where
  at_    : Nat
  dest   : Nat
  loc    : Nat
  hops   : List Hop
  held   : Bool
  buffer : Option Hop
  age    : BitVec 10
deriving DecidableEq, Repr

/-- A line of a cluster's carry write-through queue (08 R235), with the copies of it that have yet to be written. -/
structure WtLine where
  line : Nat
  left : List Nat
deriving DecidableEq, Repr

/-- A boil hint (04 Table 4.10). In a delivered hint, `ahead` counts from the frame now running to the first frame
of the span, and `left` the frames of the span not yet passed (13 Table 13.8). -/
structure Boil where
  ahead : Nat
  span  : Nat
  level : Nat
  mask  : Nat
  left  : Nat
deriving DecidableEq, Repr

/-- The mash state of a task (06 Table 6.6) with its transfers in flight, oldest first, per lane. -/
structure Mash where
  depth0     : Nat
  lo0        : Nat
  depth1     : Nat
  lo1        : Nat
  mfmt       : BitVec 4
  pf         : Nat
  cs         : Nat
  ring       : Nat
  spill      : Nat
  se         : Nat
  pushes     : Nat
  pops       : Nat
  spills     : Nat
  prefetches : Nat
  out0       : List Nat
  out1       : List Nat
  in0        : List Nat
  in1        : List Nat
deriving DecidableEq, Repr

/-- A grist table entry (06 Table 6.9). -/
structure Grist where
  fmt     : BitVec 4
  streak  : Nat
  cand    : BitVec 4
  windows : Nat
  tiles   : Nat
  n       : Nat
  lossT   : Nat
  lossM   : Nat
  lossE   : Nat
deriving DecidableEq, Repr

/-- A task of a cluster (04 R84 to R109). -/
structure Task where
  entry     : StreamEntry
  pc        : Nat
  idx       : List Word
  tflags    : BitVec 16
  frameDone : Bool
  halted    : Bool
  ran       : Bool
  back      : Option BackDesc
  mash      : Option Mash
deriving DecidableEq, Repr

/-- The sequencer's state (04 Table 4.15). -/
inductive SeqState where
  | noJob | issuing | allDone | allHalted | switching | stopped | recovering
deriving DecidableEq, Repr, Inhabited

/-- Diagnostic mode of a cluster (09 R261 to R264). -/
structure Diag where
  control : DWord
  pending : Option DWord
  state   : Nat
  free    : Bool
  isOpen  : Bool
  group   : Nat
  frame   : Word
  seen    : Nat
  capture : List DWord
deriving DecidableEq, Repr

/-- One logical cluster. `seqWait`: the sequencer's word has begun to wait; `seqMet`: its wait has been met. -/
structure Cluster where
  tasks      : List Task
  resident   : Nat
  seq        : SeqState
  switchTo   : Option Nat
  switchKind : Nat
  seqWait    : Bool
  seqMet     : Bool
  engines    : Tbl EngineRec
  sync       : Tbl SyncObj
  inbox      : List Signal
  flags      : BitVec 16
  faultWord  : Word
  addrFault  : DWord
  switches   : Word
  stalls     : DWord
  floor      : DWord
  boilPost   : Option Boil
  boil       : Option Boil
  grist      : Tbl Grist
  spin       : DWord
  satur      : Word
  unfenced   : Word
  remoteSig  : DWord
  relayLines : DWord
  mashWaits  : DWord
  spills     : Word
  prefetches : Word
  updated    : DWord
  skipped    : Word
  wtWaits    : DWord
  bubbles    : DWord
  rate       : Nat
  diag       : Diag
  wtQueue    : List WtLine
deriving DecidableEq, Repr

/-! ### Memory (01 R25, 02 R52, 08) -/

/-- A line of a remote cache (08 R220). -/
structure CacheLine where
  line : Nat
  data : List Byte
deriving DecidableEq, Repr

/-- A set of a remote cache: its 16 ways and the bits of its replacement tree. -/
structure CacheSet where
  ways : Tbl CacheLine
  plru : BitVec 15
deriving DecidableEq, Repr

/-- The byte memory of the module. A stack byte stands under its module address; a scratchpad byte under the
address that its window would have if physical cluster 8s + l of site s were numbered like a logical one, so
that a remap changes no key (01 R28). `cells` holds the declared addresses (the pale bank of a carry line),
`dark` the other bank of carry lines; `darkIn` and `pending` are the lines whose committed bank is dark and whose
pending mark is set. The four lists also hold the copies of the carry lines, with marks of their own: copy c of module
address a (1 the primary backing copy or the mirror, 2 the secondary) stands under the key c * 2^48 + a (08 R231, R235).
`written` holds the frame epoch in which the job last wrote a stack scratch byte. An address
that neither list names reads as no value: the operations supply a free value (02 R44). `sinceN` and `sinceS` are the
epochs in which the memory of each half last lost its contents. -/
structure Memory where
  cells    : List Host.Cell
  dark     : List Host.Cell
  darkIn   : List Nat
  pending  : List Nat
  written  : Tbl Nat
  epoch    : Nat
  upset    : Tbl (BitVec 72)
  caches   : Tbl (Tbl CacheSet)
  sinceN   : Nat
  sinceS   : Nat
deriving DecidableEq, Repr

/-- The objects of one stack (08 Table 8.7). -/
structure StackRec where
  partner   : Byte
  populated : Nat
  retired   : BitVec 64
  whole     : Bool
  corrected : DWord
  errors    : Word
  onDie     : Word
  refresh   : Byte
  lowest    : DWord
  degraded  : List Nat
  scrubAt   : Nat
  retrains  : Nat
deriving DecidableEq, Repr

/-! ### On-chip networks (10) -/

/-- A packet of this module that waits for its acknowledgement (11 R315, R316): its place in the order of sending,
its writer, the lines below it that its acknowledgement covers, and whether it merges. -/
structure SentPacket where
  seq   : Nat
  circ  : Nat
  cls   : Nat
  k     : Nat
  e     : Nat
  dmod  : Nat
  addr  : Nat
  lines : Nat
  acks  : List (Nat × Nat × Nat)
  merge : Bool
deriving DecidableEq, Repr

/-- What a bulk packet carries (10 Table 10.1). A write names the ordinal of its writer. -/
inductive BulkKind where
  | write
  | merge
  | tree (number : Nat) (child : Nat) (acks : List (Nat × Nat × Nat))
  | readReq (mode : BitVec 2) (dst : Nat) (circ : Nat) (merge : Bool)
  | readData (mode : BitVec 2) (dst : Nat) (circ : Nat) (merge : Bool)
  | ack (err : Bool) (ce : Bool)
  | writeThrough (copy : Nat)
  | mirror (origin : Nat)
  | mirrorAck (origin : Nat)
  | rootMerge (acks : List (Nat × Nat × Nat))
  | spill (lane : Nat)
  | prefetch (lane : Nat)
  | fabric (sp : SentPacket) (pkt : FabPacket)
deriving DecidableEq, Repr

/-- A packet of the sync network: a signal of the panel; one on its way to the rim die where its circuit leaves the module, with
the fabric packet that it becomes; or one that came in a fabric packet, with the header to be acknowledged. -/
structure SyncPacket where
  sig    : Signal
  leaves : Option (SentPacket × FabPacket)
  came   : Option (BitVec 128)
  way    : Transit
deriving DecidableEq, Repr

/-- A packet of the bulk network, of 1 to 4 consecutive lines: the writing cluster, engine and task, the writer's ordinal,
the first line's byte address, the lines and their data, its relay transfer, and where it stands. A cluster of 512 + n
names node n of a tree, 600 + n the service cores of rim die n, 1024 + i the inbound fabric packet i. `origin` of a mirror write is the unit to
which the home acknowledges. -/
structure BulkPacket where
  kind  : BulkKind
  k     : Nat
  e     : Nat
  task  : Nat
  ord   : Nat
  addr  : Nat
  lines : Nat
  data  : List Byte
  relay : Option Nat
  way   : Transit
deriving DecidableEq, Repr

/-- A mover's read that waits for the fetch of another mover of its chiplet (08 R221). -/
structure MissWait where
  site  : Nat
  line  : Nat
  k     : Nat
  e     : Nat
  task  : Nat
  dst   : Nat
  circ  : Nat
  merge : Bool
deriving DecidableEq, Repr

/-- A relay transfer on the panel: the lines that have not yet reached its destination (09 R260). -/
structure RelayXfer where
  id   : Nat
  left : Nat
deriving DecidableEq, Repr

/-- A line held at a node of a combining tree (10 R280, 11 R319). -/
structure NodeLine where
  fabric : Bool
  tree   : Nat
  node   : Nat
  line   : Nat
  child  : Nat
  data   : List Byte
  acks   : List (Nat × Nat × Nat)
deriving DecidableEq, Repr

/-- States of a link direction (10 Table 10.9). -/
inductive LinkState where
  | down | full | narrow | closed | retired
deriving DecidableEq, Repr, Inhabited

/-- One seam link direction (10 Tables 10.6 to 10.9). `narrow`: the 32 lanes of the narrow set, once it is chosen (R285, R286);
`laneFixed`: corrected words by the lane to which they are traced (R283). -/
structure LinkRec where
  state     : LinkState
  spares    : Nat
  failed    : List Nat
  narrow    : List Nat
  corrected : Word
  laneFixed : Tbl Nat
  retries   : Word
  inRow     : Nat
  traced    : List Nat
  paused    : Bool
deriving DecidableEq, Repr

/-- The on-chip networks. -/
structure Noc where
  bulk    : List BulkPacket
  sync    : List SyncPacket
  misses  : List MissWait
  relays  : List RelayXfer
  nextId  : Nat
  nodes   : List NodeLine
  links   : Tbl LinkRec
  masks   : Tbl (List Nat)
deriving DecidableEq, Repr

/-! ### Fabric ports (11) -/

/-- States of a port (11 Table 11.15). -/
inductive PortState where
  | down | up | closed | retired | ethUp | ethDown
deriving DecidableEq, Repr, Inhabited

/-- A data codeword in a retry buffer: its sequence number, its FIRST field, its words, and whether words of a packet of a frame
are among them (11 R295, R297, Table 11.16). -/
structure TxCodeword where
  seq   : BitVec 12
  first : Nat
  words : List (BitVec 72)
  job   : Bool
deriving DecidableEq, Repr

/-- One fabric port (11 Table 11.14). `rxWords` holds the words of a packet that is not complete, `arrived` the packets in the
receive buffers, and `ownXoff` the channels that this end holds off (R308, R312). `resends` counts the bad resends of the
sequence number awaited (R297). `lane` is the lane that took the last codeword (R296). `turn` is the channel of classes 1 to
4 served last, `circ` the circuit that a bulk request served last and `left` the rest of its weight; `high` and `low` are
the codewords given to classes 1 to 4 and to bulk requests since a bulk request began to wait (R311). -/
structure PortRec where
  state     : PortState
  active    : BitVec 8
  failed    : BitVec 8
  peer      : BitVec 12
  delay     : BitVec 16
  symbols   : DWord
  badCw     : Word
  retries   : Word
  corrected : Word
  xoffTime  : DWord
  discarded : Word
  marks     : DWord
  beacons   : Word
  frames    : Word
  rxSeq     : BitVec 12
  retrying  : Bool
  discard   : Bool
  resends   : Nat
  txSeq     : BitVec 12
  buffer    : List TxCodeword
  xoff      : BitVec 20
  badInRow  : List Nat
  rxWords   : List DWord
  arrived   : List FabPacket
  ownXoff   : BitVec 20
  lane      : Nat
  turn      : Nat
  circ      : Nat
  left      : Nat
  high      : Nat
  low       : Nat
deriving DecidableEq, Repr

/-- An entry of the management route table (11 Table 11.18). -/
structure MgmtRoute where
  dmod  : Nat
  port  : Nat
  alt   : Nat
  altv  : Bool
  dlset : Bool
deriving DecidableEq, Repr

/-- Count of relay lines and relay signals of one remote engine on one circuit, at the rim die where it ends (11 R317). A
waiting signal stands with its RLINES + 1 and the header that its acknowledgement answers. -/
structure RelayCount where
  circ    : Nat
  smod    : Nat
  scl     : Nat
  seng    : Nat
  lines   : Nat
  used    : Nat
  waiting : List (Signal × Nat × BitVec 128)
deriving DecidableEq, Repr

/-- A packet queued to leave: its port, fixed with its route, or none while it is held at its source behind a closed segment
(11 R310, R311). -/
structure Egress where
  sp   : SentPacket
  pkt  : FabPacket
  port : Option Nat
deriving DecidableEq, Repr

/-- A fabric packet taken in whose lines are not yet all acknowledged at their homes: the packets of the panel still out, and
whether one of them met an error (11 R315, R319). -/
structure Inbound where
  id     : Nat
  port   : Nat
  header : BitVec 128
  left   : Nat
  err    : Bool
deriving DecidableEq, Repr

/-- The fabric. -/
structure Fabric where
  moduleId  : BitVec 16
  ethPorts  : Word
  laneFloor : Byte
  markThr   : Byte
  circuits  : Nat
  rings     : Nat
  retired   : Word
  routes    : List MgmtRoute
  routeTbl  : List Byte
  updates   : Word
  unrouted  : Word
  ports     : Tbl PortRec
  rates     : Tbl Nat
  lastCut   : Tbl Time
  echoSeen  : List Nat
  sick      : List (Nat × Nat)
  closedSeg : List (Nat × Nat)
  held      : List (Nat × FabPacket)
  ordWait   : List (SentPacket × FabPacket)
  egress    : List Egress
  inbound   : List Inbound
  sent      : List SentPacket
  relay     : List RelayCount
deriving DecidableEq, Repr

/-! ### Power (13) -/

/-- Power states (13 Table 13.6). -/
inductive PowerState where
  | run | hold | park | quiet | tripped
deriving DecidableEq, Repr, Inhabited

/-- A rail's calibration (13 R351): its gain, and the windows since the gain last started at 1. -/
structure Gain where
  gain    : Rat
  windows : Nat
deriving DecidableEq, Repr

/-- A unit under divergence watch (13 R359): windows over 12% in a row, and clear windows in a row. -/
structure DivRec where
  high    : Nat
  clear   : Nat
  inEvent : Bool
  railBad : Bool
deriving DecidableEq, Repr

/-- The power objects (13 Table 13.8). -/
structure Power where
  voltNorth  : BitVec 16
  voltSouth  : BitVec 16
  ampNorth   : Word
  ampSouth   : Word
  inPower    : Word
  estPower   : Word
  protect    : BitVec 16
  clock      : BitVec 16
  floorMode  : Byte
  clockNow   : BitVec 16
  switchDue  : Option Nat
  ramped     : List Nat
  droopSeen  : Bool
  command    : Byte
  state      : PowerState
  target     : Option PowerState
  trippedN   : Bool
  trippedS   : Bool
  limitMode  : Byte
  coreLimit  : BitVec 16
  sramLimit  : BitVec 16
  railWindow : BitVec 16
  budget     : Word
  timeout    : Word
  fallback   : Word
  onFallback : Bool
  effective  : Word
  ceiling    : Word
  jobEnergy  : DWord
  jobFrac    : Nat
  energyFlag : Byte
  lifeEnergy : DWord
  lifeWraps  : Word
  lifeLatch  : Word
  savedLife  : DWord
  savedWraps : Word
  peak       : Word
  peakAt     : Byte
  divState   : Byte
  divUnit    : Byte
  divEvents  : Word
  divMax     : BitVec 16
  divs       : Tbl DivRec
  frozen     : Bool
  gains      : Tbl Gain
  inlet      : Int
  outlet     : Int
  flow       : BitVec 16
  hottest    : Int
  hotUnit    : Byte
  warnings   : Byte
  droops     : Word
  changes    : Word
  aborts     : Word
  notMet     : Word
  timeouts   : Word
  floorBroken : Word
  rimPower   : Tbl (BitVec 16 × BitVec 16 × BitVec 16)
  rimJunction : Tbl Int
  rates      : Tbl Nat
  meanSum    : Nat
  meanN      : Nat
  excess     : Nat
  meters     : Tbl (List Int)
  correction : Int
  present    : Tbl Nat
  inputLog   : List Nat
deriving DecidableEq, Repr

/-! ### The service layer (12) -/

/-- Where a live request stands (12 R331, R335). -/
inductive ReqStage where
  | collecting
  | queued
  | running
  | ended
deriving DecidableEq, Repr, Inhabited

/-- A request of the request table (12 R331 to R337). -/
structure Request where
  key      : RequestKey
  port     : Nat
  stage    : ReqStage
  accepted : Bool
  plen     : Nat
  maxNew   : Nat
  temp     : Word
  topp     : Word
  topk     : Nat
  seed     : DWord
  stop     : List Word
  prompt   : Tbl Word
  tokens   : List Word
  fresh    : Nat
  sent     : Nat
  acked    : Nat
  resends  : Nat
  slot     : Option Nat
  phase    : Nat
  pos      : Nat
  cancel   : Bool
  retire   : Option Byte
  lastType : Byte
  lastBody : List Byte
  endedAt  : Time
deriving DecidableEq, Repr

/-- A slot of the batch (12 R334 to R336). -/
structure SlotRec where
  key    : Option RequestKey
  phase  : Nat
  ntok   : Nat
  pages  : Tbl Nat
deriving DecidableEq, Repr

/-- The service layer (12 Table 12.9). `saved`, `savedSlots` and `savedFree` are the request table, the slots and the
free page frames as the last commit left them; `hops` is, of each source, the link-layer address and the UDP port of its latest
valid datagram; `now` is the latest time that a command gave. -/
structure Service where
  udpPort   : BitVec 16
  pfx       : BitVec 128
  prefixLen : Byte
  resendUs  : BitVec 16
  queueMs   : BitVec 16
  cutoffUs  : Byte
  received  : Word
  accepted  : Word
  rejected  : Word
  done      : Word
  capacity  : BitVec 16
  sentTok   : DWord
  discarded : Word
  resends   : Word
  addrs     : Tbl (BitVec 128)
  requests  : List Request
  slots     : Tbl SlotRec
  freeFr    : List Nat
  cutoff    : Bool
  hops      : List (BitVec 128 × BitVec 48 × BitVec 16)
  saved     : List Request
  savedSlots : Tbl SlotRec
  savedFree : List Nat
  now       : Time
deriving DecidableEq, Repr

/-! ### Faults (15) -/

/-- The fault log and haze counters (15 Table 15.8). -/
structure FaultLog where
  log     : List (BitVec 128)
  faults  : Word
  haze    : DWord
  retire  : Word
deriving DecidableEq, Repr

/-! ### The machine -/

/-- The PLV7264 block. -/
structure State where
  pending  : List Instr
  freeCtr  : Nat
  out      : Out
  fuse     : Fuses
  su       : StartUp
  img      : Images
  dl       : DefectList
  attNorth : Attest
  attSouth : Attest
  crown    : Crown
  can      : CanNet
  dict     : Dict
  job      : Job
  tick     : Tick
  topo     : Topo
  clusters : Tbl Cluster
  mem      : Memory
  casks    : Tbl StackRec
  noc      : Noc
  fab      : Fabric
  power    : Power
  svc      : Service
  flt      : FaultLog
deriving DecidableEq, Repr

/-- Reasons for which the block stops. The spec turns every fault of this module into state (15 R398), so no
meaning of the model raises one; the constructor stands for the closed list. Safe: it is never raised. -/
inductive Fault where
  /-- Raised by nothing: the block has no access outside its modelled state. Safe. -/
  | stuck
deriving DecidableEq, Repr

/-- Reasons for which a command has no meaning. -/
inductive Refusal where
  /-- Raised by an arm of the dispatch that has no meaning yet. Safe: the model stops. -/
  | notModelled (mnemonic : String)
deriving DecidableEq, Repr

/-- Staging of a record that nobody has written (16 R424). -/
def Staging.clean : Staging := { fields := [], pending := false, refused := false, late := false }

/-- No attestation report (17 Table 17.7). -/
def Attest.empty : Attest := { nonce := [], state := 0, built := [], report := [], signed := 0 }

/-- The eight slate entries of a new panel: kind 0, origin manufacture, the site in column 4 of each row (01 R13,
14 Table 14.5). -/
def factoryDefects : List DWord :=
  [0x0400#64, 0x0D00#64, 0x1600#64, 0x1F00#64, 0x2800#64, 0x3100#64, 0x3A00#64, 0x4300#64]

/-- The machine right after reset. -/
def State.reset : State where
  pending := []
  freeCtr := 0
  out := { sdo := [], can := [], fab := [], udp := [] }
  fuse := {
    variant := .x, panelSerial := List.replicate 16 0, vendorId := 0, siteRev := [], rimRev := [], maltRev := []
    features := [], compat := 0, mac := [], rootHash := List.replicate 32 0
    idSecretNorth := List.replicate 57 0, idSecretSouth := List.replicate 57 0, certNorth := []
    certSouth := [], nidNorth := false, nidSouth := false, minSvnNorth := 0, minSvnSouth := 0 }
  su := {
    ready := 0, step := 0, timeMs := 0, lastGood := 0, firstGood := 0, northBoot := .off, southBoot := .off
    stacksReady := 0, startCount := 0, outsideBound := 0, tested := [], portsDone := [], notAdmitted := 0
    featureMask := 0, found := [] }
  img := {
    bootBank := 0, bootSouth := 0, runningBank := 0, runSouth := 0, northA := .empty, northB := .empty, southA := .empty, southB := .empty
    running := none, fallbacks := 0, progress := 0, activation := 0, actState := 0, session := 0, active := false
    rounds := 0, receivers := [], oldSet := none, verifyFails := 0, lastFail := 0 }
  dl := {
    entries := factoryDefects, generation := 1, northCopy := factoryDefects, southCopy := factoryDefects
    northBad := false, southBad := false, clear := none, clearState := 0 }
  attNorth := Attest.empty
  attSouth := Attest.empty
  crown := {
    holder := none, epochNorth := 0, epochSouth := 0, lease := 0, peerAck := false, witNorth := false
    witSouth := false, claimNorth := none, claimSouth := none, renewal := none, withheld := [], takes := 0
    stops := 0, flashEpoch := 0 }
  can := {
    nmtNorth := .initialising, nmtSouth := .initialising, baseNode := 0x20, dataRate := 2, nodeNorth := 0
    nodeSouth := 0, emcyNorth := [], emcySouth := [], dropped := 0, errorReg := 0, heartbeat := 100, seqNorth := 0
    seqSouth := 0, flashBase := 0x20 }
  dict := { staging := [], transfers := [], owner := none, ownerSince := 0, window := 0, kept := [], cross := [], ordered := [] }
  job := {
    descriptor := [], svcDesc := [], control := 0, svcControl := 0, state := .none, placedBy := none, plan := none, refusal := 0
    copiesDone := false, endAtCommit := false, revokeOwner := false, endReason := 0, endFault := 0, endFlags := 0
    endFrames := 0, takeovers := 0, recoveries := 0, longest := 0, faultAt := none }
  tick := {
    cfg := { period := 1000, source := 0, beaconIn := 0xFF, relay := 0, ride := 0, holdLim := 1, voteWait := 0 }
    on := false, count := 0, seq := 0, committed := 0, srcState := 0, edgeFault := 0, held := 0, lost := 0
    abandoned := 0, drainNs := 0, stale := 0, hopsIn := 0, expected := none, inWindow := 0, flywheels := 0, phase := .idle
    votes := [], undrained := [], holds := 0, overrun := false, issueOn := false, lossDue := false
    recovery := { active := false, takeovers := [], repeatAt := [], since := none, edges := 0 } }
  topo := { sites := [], slateCol := [4, 4, 4, 4, 4, 4, 4, 4], remap := [], copies := [], chiplets := 0, remapGen := 0 }
  clusters := []
  mem := {
    cells := [], dark := [], darkIn := [], pending := [], written := [], epoch := 0, upset := [], caches := []
    sinceN := 0, sinceS := 0 }
  casks := []
  noc := { bulk := [], sync := [], misses := [], relays := [], nextId := 0, nodes := [], links := [], masks := [] }
  fab := {
    moduleId := 0, ethPorts := 0, laneFloor := 4, markThr := 32, circuits := 0, rings := 0, retired := 0
    routes := [], routeTbl := [], updates := 0, unrouted := 0, ports := [], rates := [], lastCut := []
    echoSeen := [], sick := [], closedSeg := [], held := [], ordWait := [], egress := [], inbound := [], sent := [], relay := [] }
  power := {
    voltNorth := 0, voltSouth := 0, ampNorth := 0, ampSouth := 0, inPower := 0, estPower := 0, protect := 0
    clock := 850, floorMode := 0, clockNow := 850, switchDue := none, ramped := [], droopSeen := false
    command := 0, state := .run, target := none, trippedN := false, trippedS := false, limitMode := 2
    coreLimit := 400, sramLimit := 60, railWindow := 50, budget := 0, timeout := 10000, fallback := 0
    onFallback := false, effective := 24000, ceiling := 24000, jobEnergy := 0, jobFrac := 0, energyFlag := 0
    lifeEnergy := 0, lifeWraps := 0, lifeLatch := 0, savedLife := 0, savedWraps := 0, peak := 0, peakAt := 0
    divState := 0, divUnit := 0xFF, divEvents := 0, divMax := 0, divs := [], frozen := false, gains := []
    inlet := 0, outlet := 0, flow := 0, hottest := 0, hotUnit := 0, warnings := 0, droops := 0, changes := 0
    aborts := 0, notMet := 0, timeouts := 0, floorBroken := 0, rimPower := [], rimJunction := [], rates := []
    meanSum := 0, meanN := 0, excess := 0, meters := [], correction := 0, present := [], inputLog := [] }
  svc := {
    udpPort := 47880, pfx := 0, prefixLen := 128, resendUs := 2000, queueMs := 5000, cutoffUs := 10
    received := 0, accepted := 0, rejected := 0, done := 0, capacity := 0, sentTok := 0, discarded := 0
    resends := 0, addrs := [], requests := [], slots := [], freeFr := [], cutoff := false, hops := []
    saved := [], savedSlots := [], savedFree := [], now := 0 }
  flt := { log := [], faults := 0, haze := 0, retire := 0 }

end Sys2Proof.Machine
end

