-- ==== Sys2Proof/Machine/Ops.lean ====
section
/-!
DEFINITION. The named operations over numbers, addresses, memory, sites and the remap table (spec 01, 02 R44 to
R53, 08 R211 to R240).
-/
namespace Sys2Proof.Machine
open Sys2Proof

/-! ### Numbers, bytes and lists -/

/-- v as n bytes, little-endian (00 R9). -/
def leBytes : Nat → Nat → List Byte
  | 0, _ => []
  | n + 1, v => BitVec.ofNat 8 v :: leBytes n (v / 256)

/-- The number that bytes hold, little-endian. -/
def leNat : List Byte → Nat
  | [] => 0
  | b :: r => b.toNat + 256 * leNat r

/-- n bits of v from bit lo. -/
def bitsAt (v lo n : Nat) : Nat := v / 2 ^ lo % 2 ^ n

/-- n bytes of a list from an offset, as a number. -/
def fieldAt (bs : List Byte) (off n : Nat) : Nat := leNat ((bs.drop off).take n)

/-- Bit i of a natural number. -/
def bitAt (v i : Nat) : Bool := v / 2 ^ i % 2 == 1

/-- A quotient rounded up. -/
def ceilDiv (a b : Nat) : Nat := (a + b - 1) / b

/-- A list cut into pieces of n, the fuel being its length. -/
def chunksOf {α : Type} (n : Nat) (l : List α) : List (List α) :=
  (List.range (ceilDiv l.length n)).map (fun i => (l.drop (i * n)).take n)

/-- The element at an index removed. -/
def dropAt {α : Type} (l : List α) (i : Nat) : List α := l.take i ++ l.drop (i + 1)

/-- An element put into a rising list of numbers, once. -/
def setInsert (x : Nat) : List Nat → List Nat
  | [] => [x]
  | y :: r => if x < y then x :: y :: r else if x = y then y :: r else y :: setInsert x r

/-- A fresh free number, and the state with its counter advanced (log entry 4). -/
def drawNat (s : State) : Nat × State := (Config.freeNat s.freeCtr, { s with freeCtr := s.freeCtr + 1 })

/-! ### Names of units (01 Tables 1.1 to 1.6) -/

/-- The 4-bit engine code (01 Table 1.6). -/
def engineCode : Engine → Nat
  | .f .f0 => 0 | .f .f1 => 1
  | .g .g0 => 2 | .g .g1 => 3 | .g .g2 => 4 | .g .g3 => 5
  | .v .v0 => 6 | .v .v1 => 7
  | .u => 8
  | .m .m0 => 9 | .m .m1 => 10

/-- The half of a site (01 R15). -/
def siteHalf (n : Nat) : Half := if n < 36 then .north else .south
/-- The half of a rim die or stack. -/
def rimHalf (n : Nat) : Half := if n % 8 < 4 then .north else .south
/-- The half of a fabric port. -/
def portHalf (p : Nat) : Half := if p % 16 < 8 then .north else .south
/-- The rim die of a port (01 R17). -/
def portRim (p : Nat) : Nat := if p < 16 then p / 2 else 8 + (p - 16) / 2
/-- Whether a fabric-mode port shares its rim die with an Ethernet-mode port (11 R293). -/
def besideEthernet (s : State) (p : Nat) : Bool := !s.fab.ethPorts.getLsbD p && s.fab.ethPorts.getLsbD (p ^^^ 1)
/-- The other half. -/
def Half.other : Half → Half
  | .north => .south
  | .south => .north
/-- The unit number of Table 15.6. -/
def unitNumber : UnitId → Nat
  | .site n => n.val
  | .rim n => 0x48 + n.val
  | .maltster h => if h = .north then 0x58 else 0x59
  | .module => 0x7F
/-- Column of a site. -/
def siteCol (n : Nat) : Nat := n % 9
/-- Row of a site. -/
def siteRow (n : Nat) : Nat := n / 9

/-! ### Sites and the remap table (01 R13, R14, R28) -/

/-- Whether a site stands at its row's slate position. -/
def isSlatePos (t : Topo) (n : Nat) : Bool := t.slateCol.getD (siteRow n) 4 == siteCol n

/-- What a site holds before anything changed it: Default columns (01 Table 1.10; 13 Table 13.8). -/
def siteDefault (t : Topo) (n : Nat) : SiteRec where
  state := if isSlatePos t n then .slateIdle else .running
  logical := none
  repair := []
  checks := 0
  rowCounts := []
  colCounts := []
  start := 0
  resetReq := 0
  resets := 0
  viaTakeover := false
  seamReq := 0
  hits := 0
  misses := 0
  cacheFix := 0
  refetch := 0
  padFix := 0
  padErr := 0
  starved := 0
  combined := 0
  sunk := 0
  fallbacks := 0
  unreach := 0
  cut := false
  vcore := 0
  iCore := 0
  iSram := 0
  iSeam := 0
  estPower := 0
  junction := 0
  droops := 0
  bubble := 0
  droopRate := 0

/-- The record of a site. -/
def siteAt (s : State) (n : Nat) : SiteRec := tget (siteDefault s.topo n) s.topo.sites n
/-- The state with one site's record changed. -/
def modSite (s : State) (n : Nat) (f : SiteRec → SiteRec) : State :=
  { s with topo := { s.topo with sites := tset s.topo.sites n (f (siteAt s n)) } }
/-- The record of a site as a table change, for loops over sites. -/
def modSites (s : State) (ns : List Nat) (f : Nat → SiteRec → SiteRec) : State :=
  ns.foldl (fun a n => modSite a n (f n)) s

/-- The code of a site state (01 Table 1.2). -/
def siteStateCode : SiteState → Nat
  | .running => 0 | .slateIdle => 1 | .forwardOnly => 2 | .dark => 3 | .computeReset => 4

/-- An entry that names no site (01 Table 1.9). -/
def remapNone : RemapEntry := { site := 0x7F#7, valid := false, subst := false }
/-- A remap entry. -/
def remapAt (s : State) (m : Nat) : RemapEntry := tget remapNone s.topo.remap m
/-- The site that holds a logical chiplet. -/
def chipletSite (s : State) (m : Nat) : Option Nat :=
  let e := remapAt s m
  if e.valid then some e.site.toNat else none
/-- The site that holds a logical cluster. -/
def clusterSite (s : State) (k : Nat) : Option Nat := chipletSite s (k / 8)

/-- The remap tables of all sources and the reported one set together (01 R28, R31). -/
def setRemap (t : Topo) (r : Tbl RemapEntry) : Topo := { t with remap := r, copies := (List.range 88).map (fun u => (u, r)) }
/-- The site to which a source sends a packet for a logical chiplet: by its own copy of the table (01 R29). -/
def siteBy (s : State) (u m : Nat) : Option Nat :=
  let e := tget remapNone (tget [] s.topo.copies u) m
  if e.valid then some e.site.toNat else none

/-- Whether a job is held: from its start to the end of its write-out. -/
def jobHeld (s : State) : Bool := s.job.state != .none
/-- Whether frames of a job run. -/
def jobRunning (s : State) : Bool := s.job.state == .running
/-- Whether ride-through mode is in effect (02 R51, R52). -/
def rideThrough (s : State) : Bool := s.tick.cfg.ride == 1#8
/-- Whether the job holds a logical cluster (01 R21, R27). -/
def clusterHeld (s : State) (k : Nat) : Bool :=
  match s.job.plan with
  | some p => p.placement.contains k
  | none => false

/-! ### Addresses (01 R25 to R29) -/

/-- First byte of a scratchpad window. -/
def padBase : Nat := 0x080000000000
/-- Size of a scratchpad window. -/
def padWindow : Nat := 0x08000000
/-- Populated bytes of a scratchpad window. -/
def padSize : Nat := 0x06000000
/-- Size of a stack window. -/
def stackWindow : Nat := 0x004000000000

/-- Where an address lies (01 Tables 1.7 and 1.8). -/
inductive Place where
  | stack (n off : Nat)
  | pad (k off : Nat)
  | clusterPage (k off : Nat)
  | chipletPage (m off : Nat)
  | rimPage (n off : Nat)
  | reserved
deriving DecidableEq, Repr

/-- The region of an address. -/
def placeOf (a : Nat) : Place :=
  if a < 0x040000000000 then .stack (a / stackWindow) (a % stackWindow)
  else if a < 0x080000000000 then .reserved
  else if a < 0x081000000000 then .pad ((a - padBase) / padWindow) ((a - padBase) % padWindow)
  else if a < 0x0C0000000000 then .reserved
  else if a < 0x0C0002000000 then .clusterPage ((a - 0x0C0000000000) / 0x10000) ((a - 0x0C0000000000) % 0x10000)
  else if a < 0x0C0010000000 then .reserved
  else if a < 0x0C0014000000 then .chipletPage ((a - 0x0C0010000000) / 0x100000) ((a - 0x0C0010000000) % 0x100000)
  else if a < 0x0C0020000000 then .reserved
  else if a < 0x0C0021000000 then .rimPage ((a - 0x0C0020000000) / 0x100000) ((a - 0x0C0020000000) % 0x100000)
  else .reserved

/-- The record of a stack before anything changed it (08 Table 8.7). -/
def stackDefault (n : Nat) : StackRec where
  partner := BitVec.ofNat 8 (n ^^^ 4)
  populated := 1125000000
  retired := 0
  whole := false
  corrected := 0
  errors := 0
  onDie := 0
  refresh := 0
  lowest := 0
  degraded := []
  scrubAt := 0
  retrains := 0
/-- The record of a stack. -/
def stackAt (s : State) (n : Nat) : StackRec := tget (stackDefault n) s.casks n
/-- The state with one stack's record changed. -/
def modStack (s : State) (n : Nat) (f : StackRec → StackRec) : State :=
  { s with casks := tset s.casks n (f (stackAt s n)) }

/-- The primary backing stack of a logical chiplet (08 R233), before retirement is considered. -/
def primaryStack (m : Nat) : Nat := if m % 8 < 4 then m / 8 else 8 + m / 8
/-- Whether a stack is retired: wholly, or with no populated line. -/
def stackRetired (s : State) (n : Nat) : Bool := (stackAt s n).whole || (stackAt s n).populated = 0
/-- The partner in force of a stack (08 R231, R234): n xor 4, else n xor 12; none where neither can serve. -/
def partnerOf (s : State) (n : Nat) : Option Nat :=
  if stackRetired s n then none
  else if !stackRetired s (n ^^^ 4) then some (n ^^^ 4)
  else if !stackRetired s (n ^^^ 12) then some (n ^^^ 12)
  else none
/-- The stacks that back a logical chiplet, where there are two (08 R233, R234). -/
def backingOf (s : State) (m : Nat) : Option (Nat × Nat) :=
  let p := primaryStack m
  let first := if stackRetired s p then p ^^^ 4 else p
  (partnerOf s first).map (fun q => (first, q))

/-! ### Carry regions (02 R50 to R55) -/

/-- The carry region that holds a module address, in the job held. -/
def regionOf (s : State) (a : Nat) : Option CarryRegion :=
  match s.job.plan with
  | some p => p.carry.find? (fun r => r.base ≤ a && a < r.base + r.length)
  | none => none
/-- Bytes of scratchpad carry that a cluster declares. -/
def padCarryBytes (p : JobPlan) (k : Nat) : Nat :=
  (p.carry.filter (fun r => !r.stack && (r.base - padBase) / padWindow == k)).foldl (fun n r => n + r.length) 0
/-- Bytes of stack carry homed in a stack. -/
def stackCarryBytes (p : JobPlan) (n : Nat) : Nat :=
  (p.carry.filter (fun r => r.stack && r.base / stackWindow == n)).foldl (fun b r => b + r.length) 0
/-- Offset of the second-bank area in the cluster's window, rounded to 1 MiB (02 R55). -/
def secondBankOff (p : JobPlan) (k : Nat) : Nat :=
  padSize - ceilDiv (padCarryBytes p k) 0x100000 * 0x100000
/-- The second-bank floor 4000h + k, sub-index 02h. -/
def bankFloor (s : State) (k : Nat) : Nat :=
  match s.job.plan with
  | some p =>
    if rideThrough s && 0 < padCarryBytes p k then padBase + k * padWindow + secondBankOff p k else 0
  | none => 0

/-! ### Checks of the job's addresses (01 R27, 08 R216, R232) -/

/-- Whether the job may access a byte: populated, held, and outside every reserved area. -/
def addrOk (s : State) (a : Nat) : Bool :=
  match placeOf a with
  | .stack n off =>
    let st := stackAt s n
    off < 64 * st.populated && (st.lowest == 0#64 || a < st.lowest.toNat)
  | .pad k off =>
    off < padSize && clusterHeld s k && (clusterSite s k).isSome
      && (bankFloor s k == 0 || a < bankFloor s k)
  | .clusterPage _ _ => false
  | .chipletPage _ _ => false
  | .rimPage _ _ => false
  | .reserved => false

/-! ### Memory keys -/

/-- The key of copy c of a module address (08 R231, R233): 1 the primary backing copy or the mirror, 2 the secondary. -/
def copyKey (c a : Nat) : Nat := c * 2 ^ 48 + a

/-- The key of a byte: a scratchpad byte stands under its physical cluster. -/
def memKey (s : State) (a : Nat) : Nat :=
  match placeOf a with
  | .pad k off =>
    match clusterSite s k with
    | some n => padBase + (n * 8 + k % 8) * padWindow + off
    | none => padBase + (576 + k) * padWindow + off
  | _ => a

/-- The module address under which the job names a key, if it names it; a copy stands for its line. -/
def keyAddr (s : State) (key : Nat) : Option Nat :=
  if key < padBase then some key
  else if 2 ^ 50 ≤ key then none
  else if 2 ^ 48 ≤ key then some (key % 2 ^ 48)
  else
    let c := (key - padBase) / padWindow
    match (siteAt s (c / 8)).logical with
    | some m => some (padBase + (8 * m + c % 8) * padWindow + (key - padBase) % padWindow)
    | none => none

/-- Whether a key lies in a carry region of the job held. -/
def keyInCarry (s : State) (key : Nat) : Bool :=
  match keyAddr s key with
  | some a => (regionOf s a).isSome
  | none => false

/-! ### Cells -/

/-- A byte put into a cell list, in its place. -/
def cellPut (a : Nat) (b : Byte) : List Host.Cell → List Host.Cell
  | [] => [(a, b)]
  | (x, v) :: r =>
    if a < x then (a, b) :: (x, v) :: r
    else if a = x then (x, b) :: r
    else (x, v) :: cellPut a b r

/-- The byte that a cell list holds. -/
def cellGet (a : Nat) : List Host.Cell → Option Byte
  | [] => none
  | (x, v) :: r => if a = x then some v else cellGet a r

/-- Bytes put from an address on. -/
def cellPutAll (a : Nat) : List Byte → List Host.Cell → List Host.Cell
  | [], cs => cs
  | b :: r, cs => cellPutAll (a + 1) r (cellPut a b cs)

/-- Whether keys rise strictly. -/
def cellsRise : List Host.Cell → Bool
  | [] => true
  | [_] => true
  | (x, _) :: (y, w) :: r => x < y && cellsRise ((y, w) :: r)

/-- The canonical form of the memory: both cell lists in strictly rising order. No cell can equal what an
unlisted address reads as, since an unlisted address has no value. -/
def Memory.wf (m : Memory) : Bool := cellsRise m.cells && cellsRise m.dark

/-! ### Reads -/

/-- The half that holds a key. -/
def keyHalf (key : Nat) : Half :=
  if key < padBase then rimHalf (key / stackWindow) else siteHalf ((key - padBase) / padWindow / 8)

/-- What an unlisted key reads as: a free value, a new one each time its half loses its contents; in scratchpad scratch
also a new one after each step 6 (02 R44). An unlisted byte of a copy is the byte of its line. -/
def freeAt (s : State) (key : Nat) : Byte :=
  let key := if key < 2 ^ 48 then key else memKey s (key % 2 ^ 48)
  if key < padBase || keyInCarry s key then
    Config.freeByte (if keyHalf key = .north then s.mem.sinceN else s.mem.sinceS) key
  else Config.freeByte (s.mem.epoch + 1) key

/-- A byte of the pale bank, which is the plain memory outside carry. A stack scratch byte that an earlier frame of
the job wrote is a free value (02 R44). -/
def paleByte (s : State) (key : Nat) : Byte :=
  match tfind s.mem.written key with
  | some e =>
    if e = s.mem.epoch || !jobRunning s then (cellGet key s.mem.cells).getD (freeAt s key)
    else Config.freeByte (s.mem.epoch + 1) key
  | none => (cellGet key s.mem.cells).getD (freeAt s key)

/-- A byte of the dark bank. -/
def darkByte (s : State) (key : Nat) : Byte := (cellGet key s.mem.dark).getD (freeAt s key)

/-- The committed byte under a key (02 R52). -/
def committedByte (s : State) (key : Nat) : Byte :=
  if s.mem.darkIn.contains (key / 64) then darkByte s key else paleByte s key

/-- The byte that a read of the job returns at a module address. -/
def readByte (s : State) (a : Nat) : Byte := committedByte s (memKey s a)

/-- The byte that a write of the current frame left, if it wrote: the bank that the mash controller and the grist
selector read (06 R165). -/
def latestByte (s : State) (a : Nat) : Byte :=
  let key := memKey s a
  if s.mem.pending.contains (key / 64) then
    (if s.mem.darkIn.contains (key / 64) then paleByte s key else darkByte s key)
  else committedByte s key

/-- n bytes read from an address on. -/
def readBytes (s : State) (a n : Nat) : List Byte := (List.range n).map (fun i => readByte s (a + i))
/-- n bytes of the latest bank. -/
def latestBytes (s : State) (a n : Nat) : List Byte := (List.range n).map (fun i => latestByte s (a + i))

/-! ### Writes -/

/-- An upset mask is cleared where a word is written (08 R240). -/
def clearUpset (m : Memory) (key : Nat) : Memory := { m with upset := terase m.upset (key / 8) }

/-- A byte written to a bank, by key. -/
def putPale (m : Memory) (key : Nat) (b : Byte) : Memory :=
  clearUpset { m with cells := cellPut key b m.cells } key
/-- A byte written to the dark bank, by key. -/
def putDark (m : Memory) (key : Nat) (b : Byte) : Memory :=
  clearUpset { m with dark := cellPut key b m.dark } key

/-- The committed bank of a line copied into the other bank, before a first partial write (02 R52). -/
def mergeLine (s : State) (line : Nat) : Memory :=
  let ks := (List.range 64).map (fun i => 64 * line + i)
  if s.mem.darkIn.contains line then
    { s.mem with cells := ks.foldl (fun c k => cellPut k (darkByte s k) c) s.mem.cells }
  else { s.mem with dark := ks.foldl (fun c k => cellPut k (paleByte s k) c) s.mem.dark }

/-- A byte written to the uncommitted bank of a carry line or of one of its copies, by key: the first write of a frame
brings the committed bank over, and sets the pending mark (02 R52). -/
def putUncommitted (s : State) (key : Nat) (b : Byte) : State :=
  let line := key / 64
  let m := if s.mem.pending.contains line then s.mem else mergeLine s line
  let m := { m with pending := setInsert line m.pending }
  { s with mem := if m.darkIn.contains line then putPale m key b else putDark m key b }

/-- Bytes written to the uncommitted bank of copy c of a module address (08 R235, R236). -/
def writeCopy (s : State) (c a : Nat) : List Byte → State
  | [] => s
  | b :: r => writeCopy (putUncommitted s (copyKey c a) b) c (a + 1) r

/-- The committed bytes of copy c of a line (08 R237, R238). -/
def copyLine (s : State) (c line : Nat) : List Byte :=
  (List.range 64).map (fun i => committedByte s (copyKey c (64 * line + i)))

/-- Bytes put into the committed bank of a line, by its key: a line restored from a copy (08 R237, R241). -/
def restoreLine (s : State) (keyLine : Nat) (bs : List Byte) : State :=
  let put (cs : List Host.Cell) : List Host.Cell := cellPutAll (64 * keyLine) bs cs
  { s with mem := { (if s.mem.darkIn.contains keyLine then { s.mem with dark := put s.mem.dark }
      else { s.mem with cells := put s.mem.cells }) with
    upset := s.mem.upset.filter (fun u => u.1 / 8 != keyLine) } }

/-- A byte written by the job or on its behalf at a module address: to the uncommitted bank of a carry line in
ride-through mode, else to the plain memory, where a stack scratch byte is marked as written in this frame. -/
def writeByte (s : State) (a : Nat) (b : Byte) : State :=
  let key := memKey s a
  if rideThrough s && jobHeld s && (regionOf s a).isSome then putUncommitted s key b
  else if key < padBase && jobRunning s && (regionOf s a).isNone then
    { s with mem := { putPale s.mem key b with written := tset s.mem.written key s.mem.epoch } }
  else { s with mem := putPale s.mem key b }

/-- Bytes written from an address on. -/
def writeBytes (s : State) (a : Nat) : List Byte → State
  | [] => s
  | b :: r => writeBytes (writeByte s a b) (a + 1) r

/-- Bytes written outside any frame (the memory window, a preload, a service page): plain memory. -/
def storePlain (s : State) (a : Nat) : List Byte → State
  | [] => s
  | b :: r => storePlain { s with mem := putPale s.mem (memKey s a) b } (a + 1) r

/-! ### Commit, abandonment, write-out (02 R48, R52, R56) -/

/-- Pending lines change their committed bank; every pending mark clears. -/
def commitMarks (m : Memory) : Memory :=
  let flip := m.pending
  { m with
    darkIn := (m.darkIn.filter (fun l => !flip.contains l)) ++ (flip.filter (fun l => !m.darkIn.contains l))
    pending := [] }

/-- Every pending mark clears, and no committed-bank mark changes. -/
def clearMarks (m : Memory) : Memory := { m with pending := [] }

/-- Every copy gone: the reserve ends with the job. -/
def dropCopies (m : Memory) : Memory :=
  { m with
    cells := m.cells.filter (fun c => c.1 < 2 ^ 48)
    dark := m.dark.filter (fun c => c.1 < 2 ^ 48)
    upset := m.upset.filter (fun u => u.1 < 2 ^ 45 || 2 ^ 50 ≤ u.1) }

/-- The carry lines copied to their backing and mirror copies at job start (02 R56, 08 R231, R233): what is listed of them;
an unlisted byte of a copy reads as that of its line. -/
def copyCarry (s : State) : State :=
  let twins (c : Host.Cell) : List Host.Cell :=
    match keyAddr s c.1 with
    | none => []
    | some a =>
      match regionOf s a with
      | none => []
      | some r => if r.stack then [(copyKey 1 a, c.2)] else [(copyKey 1 a, c.2), (copyKey 2 a, c.2)]
  let new := (s.mem.cells.filter (fun c => c.1 < 2 ^ 48)).flatMap twins
  { s with mem := { s.mem with cells := new.foldl (fun cs c => cellPut c.1 c.2 cs) s.mem.cells } }

/-- Every line whose committed bank is dark is copied into the pale bank; no dark bank remains. -/
def writeOut (s : State) : State :=
  let home := s.mem.darkIn.filter (fun l => 64 * l < 2 ^ 48)
  let ks := home.flatMap (fun l => (List.range 64).map (fun i => 64 * l + i))
  { s with mem := { s.mem with
      cells := ks.foldl (fun c k => cellPut k (darkByte s k) c) s.mem.cells
      dark := []
      darkIn := []
      pending := [] } }

/-- Step 6: scratchpad scratch holds unspecified values, and a new epoch of stack scratch begins (02 R44). -/
def dropScratch (s : State) : State :=
  { s with mem := { s.mem with
      cells := s.mem.cells.filter (fun c => c.1 < padBase || keyInCarry s c.1)
      epoch := s.mem.epoch + 1 } }

/-- Carry whose contents become unspecified (02 R47 in capacity mode): every listed byte takes a free value. -/
def spoilCarry (s : State) : State :=
  { s with mem := { s.mem with
      cells := s.mem.cells.map (fun c =>
        if keyInCarry s c.1 then (c.1, Config.freeByte (s.mem.epoch + 1) c.1) else c)
      epoch := s.mem.epoch + 1 } }

/-! ### The (72,64) code (08 R239) -/

/-- The numbers below 256 with exactly three bits set, in rising order. -/
def weightThree : List Nat :=
  (List.range 256).filter (fun v => ((List.range 8).filter (fun i => bitAt v i)).length == 3)

/-- The column of each bit of a codeword: data bits 0 to 63, then check bits 0 to 7. -/
def columns : List Nat :=
  weightThree ++ [0xF8, 0xF1, 0xE3, 0xC7, 0x8F, 0x1F, 0x3E, 0x7C] ++ [1, 2, 4, 8, 16, 32, 64, 128]

/-- The exclusive OR of the columns of the bits set in a word: the syndrome of an error pattern, and the check
byte of a data word. -/
def columnSum (w : Nat) (cols : List Nat) (i : Nat) : Nat :=
  match cols with
  | [] => 0
  | c :: r => (if bitAt w i then c else 0) ^^^ columnSum w r (i + 1)

/-- The check byte of a data word. -/
def checkByte (d : DWord) : Byte := BitVec.ofNat 8 (columnSum d.toNat columns 0)

/-- The stored codeword of a data word. -/
def codeword (d : DWord) : BitVec 72 := checkByte d ++ d

/-- What a check of a received codeword finds. -/
inductive Checked where
  | good (d : DWord)
  | corrected (d : DWord)
  | bad
deriving DecidableEq, Repr

/-- The check of a codeword. -/
def checkCodeword (w : BitVec 72) : Checked :=
  let d := w.extractLsb' 0 64
  let syn := columnSum w.toNat columns 0
  if syn = 0 then .good d
  else match columns.idxOf? syn with
    | none => .bad
    | some i => .corrected ((w ^^^ BitVec.ofNat 72 (2 ^ i)).extractLsb' 0 64)

/-- What an upset mask does to a stored word, whatever the word: the code is linear. -/
inductive Upset where
  | clean | single | double
deriving DecidableEq, Repr

/-- The kind of an upset mask. -/
def upsetKind (mask : BitVec 72) : Upset :=
  let syn := columnSum mask.toNat columns 0
  if syn = 0 then .clean else if columns.contains syn then .single else .double

/-- The words of a key range that an upset holds: their keys divided by 8, with the kind. The copy number is the
key's part above 2^45 (0 the home, 1 the primary copy, 2 the secondary). -/
def upsetsIn (m : Memory) (copy lo n : Nat) : List (Nat × Upset) :=
  (m.upset.filter (fun p =>
    copy * 2 ^ 45 + lo / 8 ≤ p.1 && p.1 ≤ copy * 2 ^ 45 + (lo + n - 1) / 8 && 0 < n)).map
      (fun p => (p.1, upsetKind p.2))

/-- The upset marks of words removed: the words were rewritten. -/
def healUpsets (m : Memory) (keys : List Nat) : Memory :=
  { m with upset := keys.foldl terase m.upset }

end Sys2Proof.Machine
end

