-- ==== Sys2Proof/Machine/Operands.lean ====
section
/-!
DEFINITION. The operand forms: fields of instruction words (04 R90, R92, R93), layout blocks, tiles and scale
rows in scratchpad (03 R71 to R74, 05 R120 to R122, 06 R153), and the address checks of an engine (01 R27, 04 R85).
-/
namespace Sys2Proof.Machine
open Sys2Proof

/-! ### Fields of words -/

/-- n bits of an instruction word from bit lo. -/
def fld (w : IWord) (lo n : Nat) : Nat := bitsAt w.toNat lo n
/-- A format field. -/
def fmtFld (w : IWord) (lo : Nat) : BitVec 4 := BitVec.ofNat 4 (fld w lo 4)
/-- One bit of a word, as a Bool. -/
def bitFld (w : IWord) (lo : Nat) : Bool := bitAt w.toNat lo

/-- CLASS (04 Table 4.3). -/
def wClass (w : IWord) : Nat := fld w 0 2
def wEngine (w : IWord) : Nat := fld w 2 4
def wOpcode (w : IWord) : Nat := fld w 6 8
def wWaitObj (w : IWord) : Nat := fld w 14 6
def wWaitN (w : IWord) : Nat := fld w 20 4
def wSigObj (w : IWord) : Nat := fld w 24 6
def wSigN (w : IWord) : Nat := fld w 30 4
def wFence (w : IWord) : Bool := bitFld w 34
def wBarrier (w : IWord) : Bool := bitFld w 35

/-- The extension word of an instruction; all zero where it has none. -/
def QInstr.extw (q : QInstr) : IWord := q.ext.getD 0

/-- An index register; I0 reads as 0 (04 R93). The list holds I1 to I7. -/
def idxReg (idx : List Word) (r : Nat) : Word := if r = 0 then 0 else idx.getD (r - 1) 0

/-- The effective line address of a 24-bit line operand (04 R93). -/
def effLine (q : QInstr) (v : Nat) : Nat := bitsAt v 0 21 + (idxReg q.idx (bitsAt v 21 3)).toNat
/-- The effective line address of the line operand at a bit of the engine word. -/
def lineAt (q : QInstr) (lo : Nat) : Nat := effLine q (fld q.word lo 24)
/-- The effective line address of the line operand at a bit of the extension word. -/
def extLine (q : QInstr) (lo : Nat) : Nat := effLine q (fld q.extw lo 24)

/-- The last populated line (01 R26). -/
def lastLine : Nat := 0x17FFFF
/-- The module address of a line of a cluster's own scratchpad. A line above the last (04 R93) stands above every
address, so that an access to it faults; the address recorded is the part below 2^48. -/
def padAddr (k line : Nat) : Nat := padBase + k * padWindow + 64 * line + (if lastLine < line then 2 ^ 60 else 0)

/-! ### Address checks of an engine -/

/-- Whether bytes [a, a + n) touch a stream region of the job (04 R85). -/
def inStream (s : State) (a n : Nat) : Bool :=
  match s.job.plan with
  | none => false
  | some p => p.streams.any (fun ke => ke.2.any (fun e =>
      let lo := padAddr ke.1 e.baseLine
      let hi := lo + 64 * e.lines
      a < hi && lo < a + n))

/-- A range of bytes that an instruction reads or writes. -/
structure Range where
  addr  : Nat
  len   : Nat
  write : Bool
deriving DecidableEq, Repr

/-- The number under which a word of an engine's memories is known among scratchpad and stack words. Pair j of slot i is
word 16384 i + j; the words of tile register r begin at 2^17 + 8192 r; the slice buffer begins at 2^18. -/
def engineWord (k e word : Nat) : Nat := 2 ^ 50 + (16 * k + e) * 2 ^ 20 + word % 2 ^ 20
/-- n words of an engine's memories that an instruction reads. -/
def engineRange (k e word n : Nat) : Range := { addr := 8 * engineWord k e word, len := 8 * n, write := false }
/-- Whether a range lies in an engine's memories. -/
def Range.inside (r : Range) : Bool := 2 ^ 53 ≤ r.addr && r.addr < 2 ^ 54

/-- The first address of a range that the job may not access, if there is one. A range of an engine lies in one
window: it is checked at its two ends, then against the reserved areas. -/
def Range.fault (s : State) (r : Range) : Option Nat :=
  if r.len = 0 || r.inside then none
  else if !addrOk s r.addr then some r.addr
  else
    let last := r.addr + r.len - 1
    if !addrOk s last then
      match placeOf r.addr with
      | .pad k _ =>
        let top := if bankFloor s k = 0 then padBase + k * padWindow + padSize else bankFloor s k
        some (max r.addr (min top last))
      | .stack n _ =>
        let st := stackAt s n
        let top := n * stackWindow + 64 * st.populated
        let top := if st.lowest = 0#64 then top else min top st.lowest.toNat
        some (max r.addr (min top last))
      | _ => some r.addr
    else if r.write && inStream s r.addr r.len then some r.addr
    else none

/-- The first fault among ranges: the address and whether it was a write. -/
def firstFault (s : State) : List Range → Option (Nat × Bool)
  | [] => none
  | r :: rs =>
    match r.fault s with
    | some a => some (a, r.write)
    | none => firstFault s rs

/-- Whether two lists of ranges have a line in common (05 R141, 07 R207). -/
def linesMeet (a b : List Range) : Bool :=
  a.any (fun x => b.any (fun y => 0 < x.len && 0 < y.len &&
    x.addr / 64 ≤ (y.addr + y.len - 1) / 64 && y.addr / 64 ≤ (x.addr + x.len - 1) / 64))

/-! ### Rows, blocks and tiles -/

/-- Width of an element of a format in bits. -/
def fmtBits (c : BitVec 4) : Nat :=
  match fmtElem c with
  | some f => f.width
  | none => 64

/-- The 32 element codes of a packed row (03 R71). -/
def rowCodes (c : BitVec 4) (bytes : List Byte) : List Nat :=
  let v := leNat bytes
  (List.range 32).map (fun i => bitsAt v (fmtBits c * i) (fmtBits c))

/-- The packed row of 32 element codes. -/
def packRow (c : BitVec 4) (codes : List Nat) : List Byte :=
  let w := fmtBits c
  leBytes (fmtRowBytes c) ((codes.zipIdx).foldl (fun a p => a + p.1 * 2 ^ (w * p.2)) 0)

/-- The values of a code list under a scale code, for a format that has elements. -/
def codeVals (c : BitVec 4) (scale : Byte) (codes : List Nat) : List Val :=
  match fmtElem c with
  | none => codes.map (fun _ => Val.nan)
  | some f => if fmtScaled c then codes.map (scaledVal f scale) else codes.map f.decode

/-- How bytes are fetched: the committed read of engines, or the latest bank of the mash controller. -/
abbrev Fetch := Nat → Nat → List Byte

/-- The scale code of row r of layout block b (03 R71, R74; 04 R94). -/
def scaleOf (c : BitVec 4) (fetch : Fetch) (sa b r : Nat) : Byte :=
  if fmtScaled c then
    ((fetch (sa + 32 * b + (if c = 9#4 then 0 else r)) 1).headD 0)
  else 0

/-- Row r of layout block b of a tile at byte address a with scale rows at sa: 32 values. -/
def blockRow (c : BitVec 4) (fetch : Fetch) (a sa b r : Nat) : List Val :=
  codeVals c (scaleOf c fetch sa b r) (rowCodes c (fetch (a + b * fmtBlockBytes c + r * fmtRowBytes c) (fmtRowBytes c)))

/-- Row i of an operand tile with kb blocks along the reduction (05 R120): 32 kb values. -/
def tileRow (c : BitVec 4) (fetch : Fetch) (a sa kb i : Nat) : List Val :=
  (List.range kb).flatMap (fun q => blockRow c fetch a sa (4 * q + i / 32) (i % 32))

/-- The columns of a list of rows of width n. -/
def turned {α : Type} (d : α) (n : Nat) (rows : List (List α)) : List (List α) :=
  (List.range n).map (fun j => rows.map (fun r => r.getD j d))

/-- The rows of an operand with inactive bands as zero (05 R121). -/
def operandRows (c : BitVec 4) (fetch : Fetch) (a sa kb band : Nat) : List (List Val) :=
  (List.range 128).map (fun i =>
    if i / 32 ≤ band then tileRow c fetch a sa kb i else List.replicate (32 * kb) Val.zero)

/-- The rows of a transposed operand: element (i, k) is element (k, i) of the stored tile of 128 columns, rows
0 to K - 1 of it (06 R153). -/
def operandTurned (c : BitVec 4) (fetch : Fetch) (a sa kb band : Nat) : List (List Val) :=
  let stored := (List.range (32 * kb)).map (fun i => tileRow c fetch a sa 4 i)
  let rows := turned Val.zero 128 stored
  rows.zipIdx.map (fun p => if p.2 / 32 ≤ band then p.1 else List.replicate (32 * kb) Val.zero)

/-- Bytes of an operand tile. -/
def tileBytes (c : BitVec 4) (kb : Nat) : Nat := 4 * kb * fmtBlockBytes c
/-- Bytes of an operand's scale rows. -/
def scaleBytes (c : BitVec 4) (kb : Nat) : Nat := if fmtScaled c then 32 * 4 * kb else 0

/-- The pairs of a pair tile in the output layout, row by row (05 Table 5.1). -/
def readPairs (fetch : Fetch) (a : Nat) : List DWord :=
  (List.range 128).flatMap (fun i => (List.range 4).flatMap (fun q =>
    let bs := fetch (a + (4 * q + i / 32) * 8192 + i % 32 * 256) 256
    (chunksOf 8 bs).map (fun b => BitVec.ofNat 64 (leNat b))))

/-- One block of bytes to write at an address. -/
abbrev Write := Nat × List Byte

/-- A layout block as it is converted: its 32 rows of values, each with the FP32 rounding that forms a scale and
the exact value that is rounded once. -/
abbrev Block := List (List (Val × Val))

/-- A converted layout block: its packed rows, its scale row where the format has one, and the flags. -/
structure Packed where
  rows  : List (List Byte)
  scale : List Byte
  flags : Flags
deriving DecidableEq, Repr

/-- A layout block converted to a format (03 R70 to R74). Bytes 1 to 31 of a tile-scaled scale row are reserved
and written as 0. -/
def packBlock (c : BitVec 4) (b : Block) : Packed :=
  match fmtElem c with
  | none => { rows := [], scale := [], flags := flagNone }
  | some f =>
    if c = 9#4 then
      let all := b.flatten
      let r := encodeBlock f (all.map Prod.fst) (all.map Prod.snd)
      { rows := (chunksOf 32 r.2.1).map (packRow c), scale := r.1 :: List.replicate 31 0, flags := r.2.2 }
    else if fmtMx c then
      let rs := b.map (fun row => encodeBlock f (row.map Prod.fst) (row.map Prod.snd))
      { rows := rs.map (fun r => packRow c r.2.1), scale := rs.map Prod.fst
        flags := rs.foldl (fun a r => a ||| r.2.2) flagNone }
    else
      let rs := b.map (fun row => row.map (fun p => f.encode false p.2))
      { rows := rs.map (fun r => packRow c (r.map Prod.fst)), scale := []
        flags := rs.flatten.foldl (fun a r => a ||| r.2) flagNone }

/-- A 32 x 32 piece of a 128 x 128 array of rows. -/
def pieceOf {α : Type} (rows : List (List α)) (rb cb : Nat) : List (List α) :=
  ((rows.drop (32 * rb)).take 32).map (fun r => (r.drop (32 * cb)).take 32)

/-- The writes of an output tile over bands 0 to rb of rows and 0 to cb of columns, with its flags (05 R134). -/
def packTile (c : BitVec 4) (rows : List (List (Val × Val))) (a sa rowb colb : Nat) : List Write × Flags :=
  let cells := (List.range (colb + 1)).flatMap (fun q => (List.range (rowb + 1)).map (fun r => (q, r)))
  let ps := cells.map (fun qr => (4 * qr.1 + qr.2, packBlock c (pieceOf rows qr.2 qr.1)))
  (ps.flatMap (fun p =>
     (a + p.1 * fmtBlockBytes c, p.2.rows.flatten) ::
       (if fmtScaled c then [(sa + 32 * p.1, p.2.scale)] else [])),
   ps.foldl (fun f p => f ||| p.2.flags) flagNone)

/-- The writes of a pair tile over bands. -/
def packPairs (rows : List (List DWord)) (a rowb colb : Nat) : List Write :=
  (List.range (colb + 1)).flatMap (fun q => (List.range (rowb + 1)).map (fun r =>
    (a + (4 * q + r) * 8192,
     ((pieceOf rows r q).flatMap (fun row => row.flatMap (fun p => leBytes 8 p.toNat))))))

/-- The ranges of a list of writes. -/
def writeRanges (ws : List Write) : List Range := ws.map (fun w => { addr := w.1, len := w.2.length, write := true })

/-- A value with its FP32 rounding and itself as the exact value: what a pair drains as (03 R82). A finite S + C whose
rounding is an infinity enters amax as the largest finite FP32 value, and its element saturates (DESIGN CHOICE, log entry 72). -/
def drainVal (p : DWord) : Val × Val :=
  let v := pairVal p
  let r := val32 (round32 v).1
  (if r.isInf && v.isFin then Elem.fp32.decode (Elem.fp32.maxCode + Elem.fp32.signBit (v.lt Val.zero)) else r, v)
/-- An FP32 word as a value to convert. -/
def wordVal (w : Word) : Val × Val := (val32 w, val32 w)

/-- A value widened to FP32 (03 R69). -/
def widen (v : Val) : Word := (round32 v).1
/-- The flags of widening rows of values: none but where a scaled value lies outside the FP32 range (03 R69, R83). -/
def widenFlags (rows : List (List Val)) : Flags :=
  rows.foldl (fun f r => r.foldl (fun f v => f ||| (round32 v).2) f) flagNone

end Sys2Proof.Machine
end

