-- ==== Sys2Proof/Machine/Clusters.lean ====
section
/-!
DEFINITION. Records of clusters, engines and sync objects as they stand when nothing has changed them, the
operations that change one record (01 R23, R24; 04; 09 R244), and the mash state image (06 Table 6.6).
-/
namespace Sys2Proof.Machine
open Sys2Proof

/-- An engine with nothing queued, open or counted. -/
def engineEmpty : EngineRec where
  queue := []
  flight := []
  slots := []
  image := []
  tiles := []
  slice := none
  issued := 0
  unacked := []
  overflow := false
  met := false
  products := 0
  gated := 0
  stalls := 0
  misses := 0
  work := 0
  relays := 0

/-- A sync object at frame begin (09 R244). -/
def syncEmpty : SyncObj := { value := 0, ovf := false, unf := false, last := 0, waiters := [] }

/-- Diagnostic mode not armed (09 R261). -/
def diagEmpty : Diag where
  control := 0
  pending := none
  state := 0
  free := false
  isOpen := false
  group := 0
  frame := 0
  seen := 0
  capture := []

/-- A cluster record with no task and every counter at 0. -/
def clusterEmpty : Cluster where
  tasks := []
  resident := 0
  seq := .noJob
  switchTo := none
  switchKind := 0
  seqWait := false
  seqMet := false
  engines := []
  sync := []
  inbox := []
  flags := 0
  faultWord := 0
  addrFault := 0
  switches := 0
  stalls := 0
  floor := 0
  boilPost := none
  boil := none
  grist := []
  spin := 0
  satur := 0
  unfenced := 0
  remoteSig := 0
  relayLines := 0
  mashWaits := 0
  spills := 0
  prefetches := 0
  updated := 0
  skipped := 0
  wtWaits := 0
  bubbles := 0
  rate := 0
  diag := diagEmpty
  wtQueue := []

/-- The record of a logical cluster. -/
def clusterAt (s : State) (k : Nat) : Cluster := tget clusterEmpty s.clusters k
/-- The state with one cluster's record changed. -/
def modCluster (s : State) (k : Nat) (f : Cluster → Cluster) : State :=
  { s with clusters := tset s.clusters k (f (clusterAt s k)) }
/-- The state with every listed cluster's record changed. -/
def mapClusters (s : State) (f : Nat → Cluster → Cluster) : State := { s with clusters := tmap s.clusters f }

/-- The record of an engine, by code. -/
def Cluster.engine (c : Cluster) (e : Nat) : EngineRec := tget engineEmpty c.engines e
/-- The cluster with one engine's record changed. -/
def Cluster.modEngine (c : Cluster) (e : Nat) (f : EngineRec → EngineRec) : Cluster :=
  { c with engines := tset c.engines e (f (c.engine e)) }
/-- The record of an engine of a cluster. -/
def engineAt (s : State) (k e : Nat) : EngineRec := (clusterAt s k).engine e
/-- The state with one engine's record changed. -/
def modEngine (s : State) (k e : Nat) (f : EngineRec → EngineRec) : State :=
  modCluster s k (fun c => c.modEngine e f)

/-- A task that no stream entry gave. -/
def taskEmpty : Task where
  entry := { baseLine := 0, lines := 0, entryPc := 0, context := 0, task := 0 }
  pc := 0
  idx := List.replicate 7 0
  tflags := 0
  frameDone := true
  halted := true
  ran := false
  back := none
  mash := none

/-- The position of a task number in the cluster's task list. -/
def Cluster.taskPos (c : Cluster) (t : Nat) : Nat := (c.tasks.findIdx (fun x => x.entry.task == t))
/-- Whether the cluster holds a task. -/
def Cluster.hasTask (c : Cluster) (t : Nat) : Bool := c.tasks.any (fun x => x.entry.task == t)
/-- A task by its number. -/
def Cluster.task (c : Cluster) (t : Nat) : Task := (c.tasks.find? (fun x => x.entry.task == t)).getD taskEmpty
/-- The cluster with one task's record changed. -/
def Cluster.modTask (c : Cluster) (t : Nat) (f : Task → Task) : Cluster :=
  { c with tasks := c.tasks.map (fun x => if x.entry.task = t then f x else x) }
/-- The resident task. -/
def Cluster.cur (c : Cluster) : Task := c.task c.resident

/-- The sync object of the resident task. -/
def Cluster.syncObj (c : Cluster) (j : Nat) : SyncObj := tget syncEmpty c.sync j
/-- The cluster with one object changed. -/
def Cluster.modSync (c : Cluster) (j : Nat) (f : SyncObj → SyncObj) : Cluster :=
  { c with sync := tset c.sync j (f (c.syncObj j)) }

/-- Whether no instruction of the cluster is queued or in flight. -/
def Cluster.idle (c : Cluster) : Bool :=
  c.engines.all (fun p => p.2.queue.isEmpty && p.2.flight.isEmpty)
/-- Whether every instruction of the cluster's tasks is complete and every bulk write acknowledged. -/
def Cluster.quiet (c : Cluster) : Bool := c.idle && c.engines.all (fun p => p.2.unacked.isEmpty)

/-- Whether a mash transfer of a task is in flight (06 R164). -/
def Mash.moving (m : Mash) : Bool := !(m.out0.isEmpty && m.out1.isEmpty && m.in0.isEmpty && m.in1.isEmpty)

/-- Whether a mash transfer of the resident task is in flight. -/
def mashMoving (c : Cluster) : Bool := (c.cur.mash.map Mash.moving).getD false

/-- Lines of a mash entry (06 R161). -/
def mashLines (f : BitVec 4) : Nat := if f = 0#4 then 1024 else if f = 1#4 then 512 else 264

/-- The ring capacity per lane (06 R161). -/
def ringCap (b : BackDesc) : Nat := (b.lines - 33) / (2 * mashLines b.mfmt)

/-- The mash state of a task at job start (06 Table 6.6). -/
def mashInit (b : BackDesc) : Mash where
  depth0 := 0
  lo0 := 0
  depth1 := 0
  lo1 := 0
  mfmt := b.mfmt
  pf := b.pf
  cs := ringCap b
  ring := b.region + 33
  spill := b.spill
  se := b.se
  pushes := 0
  pops := 0
  spills := 0
  prefetches := 0
  out0 := []
  out1 := []
  in0 := []
  in1 := []

/-- The mash state image (06 Table 6.6), 64 bytes. -/
def mashImage (m : Mash) : List Byte :=
  leBytes 3 m.depth0 ++ leBytes 3 m.lo0 ++ leBytes 3 m.depth1 ++ leBytes 3 m.lo1 ++
  leBytes 1 (m.mfmt.toNat + 16 * m.pf) ++ leBytes 3 0 ++ leBytes 2 m.cs ++ leBytes 6 m.ring ++
  leBytes 6 m.spill ++ leBytes 2 0 ++ leBytes 3 m.se ++ leBytes 1 0 ++ leBytes 4 m.pushes ++ leBytes 4 m.pops ++
  leBytes 4 m.spills ++ leBytes 4 m.prefetches ++ leBytes 12 0

/-- The mash state that an image holds, with no transfer in flight. -/
def mashOfImage (b : List Byte) : Mash where
  depth0 := fieldAt b 0 3
  lo0 := fieldAt b 3 3
  depth1 := fieldAt b 6 3
  lo1 := fieldAt b 9 3
  mfmt := BitVec.ofNat 4 (fieldAt b 12 1)
  pf := fieldAt b 12 1 / 16
  cs := fieldAt b 16 2
  ring := bitsAt (fieldAt b 18 3) 0 21
  spill := fieldAt b 24 6
  se := fieldAt b 32 3
  pushes := fieldAt b 36 4
  pops := fieldAt b 40 4
  spills := fieldAt b 44 4
  prefetches := fieldAt b 48 4
  out0 := []
  out1 := []
  in0 := []
  in1 := []

/-- The stream state line of a task, or the header of its context (04 Table 4.1). -/
def stateLine (nextPc : Nat) (halt : Bool) (tflags : BitVec 16) (idx : List Word) : List Byte :=
  leBytes 4 (nextPc + (if halt then 2 ^ 24 else 0)) ++ leBytes 4 tflags.toNat ++
  (List.range 7).flatMap (fun r => leBytes 4 (idxReg idx (r + 1)).toNat) ++ leBytes 28 0

/-- A grist table entry as stored (06 Table 6.9). -/
def gristBytes (g : Grist) : List Byte :=
  leBytes 2 (g.fmt.toNat + 16 * g.streak + 256 * g.cand.toNat) ++ leBytes 2 g.windows ++ leBytes 4 g.tiles ++
  leBytes 4 g.n ++ leBytes 4 g.lossT ++ leBytes 4 g.lossM ++ leBytes 4 g.lossE ++ leBytes 8 0

/-- The grist table entry that 32 bytes hold. -/
def gristOfBytes (b : List Byte) : Grist where
  fmt := BitVec.ofNat 4 (fieldAt b 0 1)
  streak := fieldAt b 0 1 / 16
  cand := BitVec.ofNat 4 (fieldAt b 1 1)
  windows := fieldAt b 2 2
  tiles := fieldAt b 4 4
  n := fieldAt b 8 4
  lossT := fieldAt b 12 4
  lossM := fieldAt b 16 4
  lossE := fieldAt b 20 4

/-- The initial grist format of INIT (06 Table 6.5). -/
def gristFormat (i : BitVec 2) : BitVec 4 := if i = 0#2 then 9#4 else if i = 1#2 then 7#4 else 3#4
/-- A grist entry at job start. -/
def gristInit (i : BitVec 2) : Grist :=
  { fmt := gristFormat i, streak := 0, cand := 0, windows := 0, tiles := 0, n := 0, lossT := 0, lossM := 0, lossE := 0 }

end Sys2Proof.Machine
end

