-- ==== Sys2Proof/Machine/Flags.lean ====
section
/-!
DEFINITION. Flag computations: the numeric flags of a cluster and of its tasks (03 R83, 04 R97), and what a signal
does to a sync object's value and flags (09 R245, R246, R254).
-/
namespace Sys2Proof.Machine
open Sys2Proof

/-- Flags set in the cluster, and in the TFLAGS of the task that was resident when the instruction issued. -/
def setFlags (s : State) (k task : Nat) (f : Flags) : State :=
  modCluster s k (fun c => { c.modTask task (fun t => { t with tflags := t.tflags ||| f }) with flags := c.flags ||| f })

/-- The value that a signal leaves, with the overflow and underflow events: add holds at FFFFh, subtract at 0, set
changes neither flag (09 R245). OP: 0 add, 1 subtract, 2 set. -/
def signalValue (v : BitVec 16) (op amount : Nat) : BitVec 16 × Bool × Bool :=
  if op = 0 then
    if v.toNat + amount > 0xFFFF then (0xFFFF#16, true, false) else (BitVec.ofNat 16 (v.toNat + amount), false, false)
  else if op = 1 then
    if v.toNat < amount then (0#16, false, true) else (BitVec.ofNat 16 (v.toNat - amount), false, false)
  else (BitVec.ofNat 16 amount, false, false)

/-- The last-signaller word of a signal (09 Table 9.3), with the sticky UNF_ANY of the word before it. -/
def lastWord (old : Word) (g : Signal) : Word :=
  BitVec.ofNat 32 (g.srcK % 512 + 2 ^ 9 * (g.srcE % 16) + (if g.remote then 2 ^ 13 + 2 ^ 14 * (g.circ % 256) else 0)
    + (if g.unf then 2 ^ 22 else 0) + (if g.unf || old.getLsbD 23 then 2 ^ 23 else 0) + 2 ^ 31)

/-- An object after a signal, before waits are judged. -/
def signalObj (o : SyncObj) (g : Signal) : SyncObj :=
  let r := signalValue o.value g.op g.amount
  { o with value := r.1, ovf := o.ovf || r.2.1, unf := o.unf || r.2.2, last := lastWord o.last g }

/-- Whether a signal saturates an object: the event that 4000h + k, sub-index 09h counts. -/
def signalSaturates (o : SyncObj) (g : Signal) : Bool :=
  let r := signalValue o.value g.op g.amount
  r.2.1 || r.2.2

/-- The sync object word (09 Table 9.4a). -/
def syncWord (o : SyncObj) : DWord :=
  BitVec.ofNat 64 (o.value.toNat + (if o.ovf then 2 ^ 16 else 0) + (if o.unf then 2 ^ 17 else 0)
    + (o.waiters.foldl (fun a w => if bitAt a w.1 then a else a + 2 ^ w.1) 0) * 2 ^ 20 + o.last.toNat * 2 ^ 32)

end Sys2Proof.Machine
end

