-- ==== Sys2Proof/Machine/Seams.lean ====
section
/-!
DEFINITION. Units, rings, link directions, health masks and routes on the panel (spec 01 R18, R19; 10 R270 to R274,
R286). Units are sites 0 to 71 and rim dies 72 + n.
-/
namespace Sys2Proof.Machine
open Sys2Proof

/-! ### Rings -/

/-- Whether a unit is a rim die. -/
def isRim (u : Nat) : Bool := 72 ≤ u
/-- The row of a unit. -/
def unitRow (u : Nat) : Nat := if isRim u then (u - 72) % 8 else siteRow u
/-- The rim dies of a row. -/
def rimW (row : Nat) : Nat := 72 + row
def rimE (row : Nat) : Nat := 80 + row
/-- The row ring in ring order (01 R18). -/
def rowRing (row : Nat) : List Nat :=
  let c (i : Nat) : Nat := 9 * row + i
  [rimW row, c 1, c 3, c 5, c 7, rimE row, c 8, c 6, c 4, c 2, c 0]
/-- The column ring in ring order (01 R19). -/
def colRing (col : Nat) : List Nat := [0, 2, 4, 6, 7, 5, 3, 1].map (fun r => 9 * r + col)

/-- The north-edge and south-edge neighbours of a row (01 Table 1.5). -/
def northRow (r : Nat) : Nat := [1, 0, 0, 1, 2, 3, 4, 6].getD r 0
def southRow (r : Nat) : Nat := [2, 3, 4, 5, 6, 7, 7, 5].getD r 0

/-- The edge of u that joins its ring neighbour v (01 R18, R19; 10 R291). -/
def edgeTo (u v : Nat) : Nat :=
  if isRim u then
    (if v = 9 * unitRow u + (if u < 80 then 0 else 8) then 0 else 1)
  else if isRim v then (if v < 80 then 3 else 1)
  else if siteRow u = siteRow v then (if siteCol u < siteCol v then 1 else 3)
  else if siteRow v = northRow (siteRow u) then 0 else 2

/-- The neighbour on an edge. -/
def neighbour (u e : Nat) : Nat :=
  if isRim u then
    9 * unitRow u + (if u < 80 then (if e = 0 then 0 else 1) else (if e = 0 then 8 else 7))
  else
    let r := siteRow u
    let c := siteCol u
    if e = 0 then 9 * northRow r + c
    else if e = 2 then 9 * southRow r + c
    else if e = 3 then (if 2 ≤ c then u - 2 else rimW r)
    else (if c ≤ 6 then u + 2 else rimE r)

/-- The key of a link direction at its sending end. -/
def linkKey (u e l : Nat) : Nat := u * 16 + 4 * e + l
/-- The key of a direction operand. -/
def dirKey : SeamDir → Nat
  | .site s e l => linkKey s.val e.val l.val
  | .rim n e l => linkKey (72 + n.val) e.val l.val
/-- The unit at the sending end of a direction. -/
def dirUnit : SeamDir → Nat
  | .site s _ _ => s.val
  | .rim n _ _ => 72 + n.val
/-- The directions of every seam link: four edges of each site and two of each rim die. -/
def allDirs : List Nat :=
  (List.range 72).flatMap (fun u => (List.range 16).map (fun x => u * 16 + x)) ++
  (List.range 16).flatMap (fun n => (List.range 8).map (fun x => (72 + n) * 16 + x))
/-- The far end of a direction. -/
def keyPeer (key : Nat) : Nat := neighbour (key / 16) (key % 16 / 4)
/-- The direction that runs the other way on the same link. -/
def keyBack (key : Nat) : Nat :=
  let v := keyPeer key
  linkKey v (edgeTo v (key / 16)) (key % 4)

/-! ### Link records -/

/-- A direction as Table 10.8 gives it by default: full, with no spare in use. -/
def linkDefault : LinkRec where
  state := .full
  spares := 0
  failed := []
  narrow := []
  corrected := 0
  laneFixed := []
  retries := 0
  inRow := 0
  traced := []
  paused := false
/-- The record of a direction. -/
def linkAt (s : State) (key : Nat) : LinkRec := tget linkDefault s.noc.links key
/-- The state with one direction changed. -/
def modLink (s : State) (key : Nat) (f : LinkRec → LinkRec) : State :=
  { s with noc := { s.noc with links := tset s.noc.links key (f (linkAt s key)) } }

/-! ### Health masks (10 R274, R286) -/

/-- A closed direction stands in a mask under its key plus this. -/
def closedMark : Nat := 4096
/-- A direction retired while another was closed stands in a mask under its key plus this too, until none is closed (10 Table
10.10). -/
def lateMark : Nat := 8192
/-- The mask of a unit: the directions it holds as retired or lost, those it holds as closed, and the late ones. -/
def maskOf (s : State) (u : Nat) : List Nat := tget [] s.noc.masks u
/-- The state with one unit's mask changed. -/
def setMask (s : State) (u : Nat) (m : List Nat) : State :=
  { s with noc := { s.noc with masks := tset s.noc.masks u m } }
/-- Whether a mask holds a direction as closed. -/
def someClosed (m : List Nat) : Bool := m.any (fun x => closedMark ≤ x && x < lateMark)
/-- A mask whose late marks end where nothing is closed. -/
def settleMask (m : List Nat) : List Nat := if someClosed m then m else m.filter (fun x => x < lateMark)
/-- A health update of one direction taken by a unit: its state at the sending end. -/
def takeUpdate (s : State) (u key : Nat) : State :=
  let old := maskOf s u
  let m := old.filter (fun x => x != key && x != closedMark + key && x != lateMark + key)
  match (linkAt s key).state with
  | .closed => setMask s u (setInsert (closedMark + key) m)
  | .retired =>
    setMask s u (settleMask (setInsert key
      (if old.contains (closedMark + key) || old.contains (lateMark + key) then setInsert (lateMark + key) m else m)))
  | .down => setMask s u (settleMask (setInsert key m))
  | _ => setMask s u (settleMask m)
/-- Every unit. -/
def allUnits : List Nat := List.range 88
/-- A direction's state taken by every unit at once: what start-up leaves (14 R392). -/
def tellAll (s : State) (key : Nat) : State := allUnits.foldl (fun a u => takeUpdate a u key) s

/-- Whether a unit is a dark site. -/
def isDark (s : State) (u : Nat) : Bool := !isRim u && (siteAt s u).state == .dark

/-- Whether a source takes a direction as healthy: full, narrow or closed in its mask, and neither end dark. -/
def healthy (s : State) (src key : Nat) : Bool :=
  !(maskOf s src).contains key && !isDark s (key / 16) && !isDark s (keyPeer key)

/-! ### Legs -/

/-- The hops from position i, n of them, upwards or downwards round a ring, as directions of a link index. -/
def hops (ring : List Nat) (up : Bool) (link : Nat) : Nat → Nat → List Nat
  | _, 0 => []
  | i, n + 1 =>
    let j := if up then (i + 1) % ring.length else (i + ring.length - 1) % ring.length
    let u := ring.getD i 0
    let v := ring.getD j 0
    linkKey u (edgeTo u v) link :: hops ring up link j n

/-- The two ways of a leg, the primary first: the shorter, a tie in the direction of rising position (10 R272). -/
def legWays (ring : List Nat) (a b link : Nat) : List Nat × List Nat :=
  let n := ring.length
  let i := ring.idxOf a
  let j := ring.idxOf b
  let up := (j + n - i) % n
  let down := (i + n - j) % n
  if up ≤ down then (hops ring true link i up, hops ring false link i down)
  else (hops ring false link i down, hops ring true link i up)

/-- One leg of a panel route: its ring, where it enters and leaves it, and whether it travels in turn set R. -/
structure RingLeg where
  ring     : List Nat
  a        : Nat
  b        : Nat
  rowFirst : Bool
deriving DecidableEq, Repr

/-- Whether a direction crosses its ring's date line: between column 0 and rim W, or between rows 1 and 0 (10 R272). -/
def onDateLine (key : Nat) : Bool :=
  let u := key / 16
  let v := keyPeer key
  if isRim u || isRim v then (u < 80 && v < 80) && siteCol (min u v) == 0
  else siteCol u == siteCol v && siteRow u + siteRow v == 1

/-- The hops of one leg: on VC0 until the date line, on VC1 from it on. -/
def legHops (rowFirst : Bool) : Bool → List Nat → List Hop
  | _, [] => []
  | vc, key :: r =>
    let vc := vc || onDateLine key
    { key := key, rowFirst := rowFirst, vc1 := vc } :: legHops rowFirst vc r

/-- Whether a way crosses a direction that the source holds as closed and another that was retired meanwhile: packets for it
wait until both are retired (10 Table 10.10). -/
def awaitsBoth (s : State) (src : Nat) (way : List Nat) : Bool :=
  way.any (fun key => (maskOf s src).contains (closedMark + key)) &&
  way.all (fun key => healthy s src key || (maskOf s src).contains (lateMark + key))

/-- A leg chosen by a source: its hops, and whether they are the primary way. -/
def chooseLeg (s : State) (src link : Nat) (l : RingLeg) : Option (List Hop × Bool) :=
  if l.a = l.b then some ([], true)
  else
    let w := legWays l.ring l.a l.b link
    let takes (way : List Nat) : Bool := way.all (healthy s src) || awaitsBoth s src way
    if takes w.1 then some (legHops l.rowFirst false w.1, true)
    else if takes w.2 then some (legHops l.rowFirst false w.2, false)
    else none

/-- The hops of several legs, if each finds a way. -/
def chooseLegs (s : State) (src link : Nat) : List RingLeg → Option (List Hop × Bool)
  | [] => some ([], true)
  | l :: r =>
    match chooseLeg s src link l with
    | none => none
    | some x =>
      match chooseLegs s src link r with
      | none => none
      | some y => some (x.1 ++ y.1, x.2 && y.2)

/-- The legs of a route with the column leg first. -/
def legsC (a b : Nat) : List RingLeg :=
  let mid := 9 * unitRow b + siteCol a
  [⟨colRing (siteCol a), a, mid, false⟩, ⟨rowRing (unitRow b), mid, b, false⟩]
/-- The legs of a route with the row leg first. -/
def legsR (a b : Nat) : List RingLeg :=
  let mid := 9 * unitRow a + siteCol b
  [⟨rowRing (unitRow a), a, mid, true⟩, ⟨colRing (siteCol b), mid, b, true⟩]
/-- The three legs of a route between rim dies of different rows, by its transit column: the first in turn set R, the others
in turn set C. -/
def legsRim (a b col : Nat) : List RingLeg :=
  let m1 := 9 * unitRow a + col
  let m2 := 9 * unitRow b + col
  [⟨rowRing (unitRow a), a, m1, true⟩, ⟨colRing col, m1, m2, false⟩, ⟨rowRing (unitRow b), m2, b, false⟩]

/-- The searches of R274, in order, as leg lists. -/
def searches (a b : Nat) : List (List RingLeg) :=
  if isRim a then
    (if isRim b then
      (if unitRow a = unitRow b then [[⟨rowRing (unitRow a), a, b, true⟩]]
       else if b < 80 then [legsRim a b 0, legsRim a b 1] else [legsRim a b 8, legsRim a b 7])
     else [legsR a b])
  else if isRim b then [legsC a b]
  else [legsC a b, legsR a b]

/-- The link indices in the order in which a source tries them. -/
def linkOrder (a b u : Nat) : List Nat := (List.range 4).map (fun i => (a + b + u + i) % 4)

/-- The route that a source chooses to a unit and local cluster: its hops, and whether it is the primary route on index L with
the first search. None: unreachable. -/
def findRoute (s : State) (a b u : Nat) : Option (List Hop × Bool) :=
  let tries := (searches a b).zipIdx.flatMap (fun l => (linkOrder a b u).zipIdx.map (fun x => (l, x)))
  tries.findSome? (fun t =>
    (chooseLegs s a t.2.1 t.1.1).map (fun r => (r.1, r.2 && t.1.2 == 0 && t.2.2 == 0)))

/-- Whether a source knows a direction of a route as closed (10 R286). -/
def crossesClosed (s : State) (src : Nat) (hops : List Hop) : Bool :=
  hops.any (fun h => (maskOf s src).contains (closedMark + h.key))

/-- What a source does with a packet. -/
inductive Passage where
  | through (hops : List Hop) (primary : Bool)
  | held (hops : List Hop)
  | unreachable
deriving DecidableEq, Repr

/-- The passage from a unit to a unit and local cluster: held where a direction of the chosen route is closed. A packet
between two units of one chiplet never leaves its router. -/
def passage (s : State) (a b u : Nat) : Passage :=
  if a = b then .through [] true
  else match findRoute s a b u with
    | none => .unreachable
    | some r => if crossesClosed s a r.1 then .held r.1 else .through r.1 r.2

/-- The name of a unit. -/
def unitId (u : Nat) : UnitId :=
  if h : u < 72 then .site ⟨u, h⟩ else if h : u - 72 < 16 then .rim ⟨u - 72, h⟩ else .module

/-- The directions of every link of a site, both ways. -/
def siteLinks (n : Nat) : List Nat :=
  let own := (List.range 16).map (fun x => n * 16 + x)
  own ++ own.map keyBack

/-- Every link of a site in a state that every unit knows, but for the directions retired: a seam-domain reset, or a dark
site. -/
def setSiteLinks (s : State) (n : Nat) (st : LinkState) : State :=
  (siteLinks n).foldl (fun a key =>
    if (linkAt a key).state == .retired then a else tellAll (modLink a key (fun r => { r with state := st })) key) s

end Sys2Proof.Machine
end

