-- ==== Sys2Proof/Machine/Udp.lean ====
section
/-!
DEFINITION. IPv6, UDP and the message header of the request protocol, as an Ethernet-mode port sends and checks them (spec 12
R329, R330). The checksum is that of UDP over IPv6 (PRESUMED, log entry 75).
-/
namespace Sys2Proof.Machine
open Sys2Proof

/-- The pairs of bytes of a list as 16-bit numbers, the first byte the higher; an odd last byte is filled with 0. -/
def netWords : List Byte → List Nat
  | [] => []
  | [a] => [256 * a.toNat]
  | a :: b :: r => (256 * a.toNat + b.toNat) :: netWords r
/-- The bytes of a number in network order. -/
def netBytes (n v : Nat) : List Byte := (leBytes n v).reverse

/-- The UDP checksum: the one's complement of the one's complement sum of the pseudo-header, the UDP header and the payload; 0 is
sent as FFFFh. -/
def udpChecksum (src dst : BitVec 128) (srcPort dstPort : BitVec 16) (payload : List Byte) : BitVec 16 :=
  let n := 8 + payload.length
  let bytes := netBytes 16 src.toNat ++ netBytes 16 dst.toNat ++ netBytes 4 n ++ netBytes 4 17 ++
    netBytes 2 srcPort.toNat ++ netBytes 2 dstPort.toNat ++ netBytes 2 n ++ payload
  let sum := (netWords bytes).foldl (fun a w => a + w) 0 % 65535
  BitVec.ofNat 16 (if sum = 0 then 65535 else 65535 - sum)

/-- Whether the checksum of a datagram is right. -/
def checksumOk (d : Datagram) : Bool := d.checksum == udpChecksum d.ip.src d.ip.dst d.srcPort d.dstPort d.payload

/-- The solicited-node multicast address of an address (12 Table 12.2). -/
def solicitedNode (a : BitVec 128) : BitVec 128 := BitVec.ofNat 128 (0xFF0200000000000000000001FF000000 + a.toNat % 2 ^ 24)

/-- The IPv6 header of what a port sends: hop limit 64, traffic class 0, flow label 0. -/
def ipOut (mac : BitVec 48) (src dst : BitVec 128) : Ip6Out :=
  { mac := mac, src := src, dst := dst, hopLimit := 64, trafficClass := 0, flowLabel := 0 }

/-- A message: header and body (12 Table 12.3). -/
def messageBytes (type : Byte) (rid : DWord) (body : List Byte) : List Byte :=
  leBytes 2 0x504C ++ [1, type] ++ leBytes 2 body.length ++ leBytes 2 0 ++ leBytes 8 rid.toNat ++ body

/-- A message received: its port, where it came from, its type, its request identity and its body. -/
structure Message where
  port : PortId
  src  : BitVec 128
  type : Nat
  rid  : DWord
  body : List Byte
deriving DecidableEq, Repr

/-- The message in a datagram; none with a wrong MAGIC or VER, or of another length (12 R330). -/
def messageOf (d : Datagram) : Option Message :=
  let b := d.payload
  if 16 ≤ b.length && fieldAt b 0 2 == 0x504C && fieldAt b 2 1 == 1 && b.length == 16 + fieldAt b 4 2 then
    some { port := d.port, src := d.ip.src, type := fieldAt b 3 1, rid := BitVec.ofNat 64 (fieldAt b 8 8), body := b.drop 16 }
  else none

/-- Whether a type is one that a client sends (12 Table 12.4). -/
def clientType (t : Nat) : Bool := t == 1 || t == 4 || t == 5 || t == 8

end Sys2Proof.Machine
end

