-- ==== Sys2Proof/Machine/Faults.lean ====
section
/-!
DEFINITION. Fault records, haze, the defect list, abandonment, slate takeover and the end of a job (spec 15; 14
R376, R377; 02 R47, R48, R56; 01 R30, R31, R448; 12 R338).
-/
namespace Sys2Proof.Machine
open Sys2Proof

/-! ### Fault records and haze (15 R395, R412, R413) -/

/-- The class of a fault code (15 Table 15.2). -/
def faultClass (code : Nat) : Nat :=
  if code = 0 then 0
  else if code ≤ 5 || code = 0x16 then 1
  else if code ≤ 8 then 2
  else if code ≤ 0x0B then 3
  else if code = 0x0C then 5
  else if code ≤ 0x0F then 4
  else if code ≤ 0x12 || code = 0x15 then 5
  else 6

/-- A fault record (15 Table 15.6). -/
def faultRecord (tick : DWord) (code cls action unit eng lcl detail : Nat) : BitVec 128 :=
  BitVec.ofNat 128 (tick.toNat + 2 ^ 64 * (code % 256) + 2 ^ 72 * (cls % 8) + 2 ^ 76 * (action % 16)
    + 2 ^ 80 * (unit % 128) + 2 ^ 88 * (eng % 16) + 2 ^ 92 * (lcl % 8) + 2 ^ 96 * (detail % 2 ^ 32))

/-- The half whose maltster reports for a unit; the module's own records go to the crown holder's half. -/
def unitHalf (s : State) : UnitId → Half
  | .site n => siteHalf n.val
  | .rim n => rimHalf n.val
  | .maltster h => h
  | .module => s.crown.holder.getD .north

/-- The latest 256 of a log. -/
def lastOf {α : Type} (n : Nat) (l : List α) : List α := l.drop (l.length - n)

/-- A record queued for EMCY: at most 64 wait on a port, and the oldest is dropped and counted (16 R435). -/
def queueEmcy (s : State) (h : Half) (r : BitVec 128) : State :=
  let add (q : List (BitVec 128)) : List (BitVec 128) := lastOf 64 (q ++ [r])
  match h with
  | .north => { s with can := { s.can with
      emcyNorth := add s.can.emcyNorth
      dropped := if 64 ≤ s.can.emcyNorth.length then s.can.dropped + 1 else s.can.dropped } }
  | .south => { s with can := { s.can with
      emcySouth := add s.can.emcySouth
      dropped := if 64 ≤ s.can.emcySouth.length then s.can.dropped + 1 else s.can.dropped } }

/-- Actions of a fault record (15 Table 15.6). -/
def actNone : Nat := 0
def actReplay : Nat := 1
def actTakeover : Nat := 2
def actEnd : Nat := 3
def actNextStart : Nat := 4

/-- A record written: to the log, to the count, to bit 0 of the error register and to an EMCY queue. -/
def report (s : State) (unit : UnitId) (code action eng lcl detail : Nat) : State :=
  let r := faultRecord s.tick.count code (faultClass code) action (unitNumber unit) eng lcl detail
  let s := { s with
    flt := { s.flt with log := lastOf 256 (s.flt.log ++ [r]), faults := s.flt.faults + 1 }
    can := { s.can with errorReg := s.can.errorReg ||| 1 } }
  queueEmcy s (unitHalf s unit) r

/-- No engine is named (15 Table 15.6). -/
def noEngine : Nat := 15

/-- Haze events counted (15 R395). -/
def haze (s : State) (n : Nat) : State := { s with flt := { s.flt with haze := s.flt.haze + BitVec.ofNat 64 n } }

/-! ### The defect list (14 R376, R377) -/

def defKind (e : DWord) : Nat := bitsAt e.toNat 0 5
def defOrigin (e : DWord) : Nat := bitsAt e.toNat 5 2
def defUnit (e : DWord) : Nat := bitsAt e.toNat 8 7
def defDetail (e : DWord) : Nat := bitsAt e.toNat 16 32
/-- An entry (14 Table 14.4). -/
def defEntry (kind origin unit detail start : Nat) : DWord :=
  BitVec.ofNat 64 (kind % 32 + 2 ^ 5 * (origin % 4) + 2 ^ 8 * (unit % 128) + 2 ^ 16 * (detail % 2 ^ 32)
    + 2 ^ 48 * (start % 2 ^ 16))

/-- Whether an entry covers another (14 Table 14.5a). -/
def defCovers (c f : DWord) : Bool :=
  let fk := defKind f
  let cd := defDetail c
  let fd := defDetail f
  defUnit c == defUnit f &&
  (match defKind c with
   | 3 => fk != 0 && fk != 3
   | 4 => [5, 6, 7, 8, 9, 15].contains fk
   | 5 => [6, 7, 8, 15].contains fk && fd % 8 == cd % 8
   | 2 => fk == 1 && fd % 16 == cd % 16
   | 11 => fk == 10 && fd % 32 == cd % 32
   | 13 => fk == 12 || (cd % 2 == 1 && [10, 11, 14].contains fk)
   | _ => false)

/-- The coarser entries that could stand for a defect in a full list, smallest first (14 R377). -/
def defEnclosing (e : DWord) (start : Nat) : List DWord :=
  let u := defUnit e
  let o := defOrigin e
  let d := defDetail e
  if u < 72 then
    (if [6, 7, 8, 15].contains (defKind e) then [defEntry 5 o u (d % 8) start] else []) ++
    (if [5, 6, 7, 8, 9, 15].contains (defKind e) then [defEntry 4 o u 0 start] else []) ++
    [defEntry 3 o u 0 start]
  else
    (if defKind e = 10 then [defEntry 11 o u (d % 32) start] else []) ++
    (if defKind e = 12 then [defEntry 13 o u 0 start] else []) ++
    [defEntry 13 o u 1 start]

/-- The entry under which a defect is written: itself, or in a full list the smallest enclosing unit that covers
another entry, or else the unit's entry in the reserve. -/
def defPlaced (l : List DWord) (e : DWord) (start : Nat) : DWord :=
  if l.length < 8192 then e
  else
    match (defEnclosing e start).find? (fun c => l.any (fun x => defCovers c x)) with
    | some c => c
    | none => if defUnit e < 72 then defEntry 3 (defOrigin e) (defUnit e) 0 start
              else defEntry 13 (defOrigin e) (defUnit e) 1 start

/-- Whether two entries name one defect. -/
def defSame (a b : DWord) : Bool := defKind a == defKind b && defUnit a == defUnit b && defDetail a == defDetail b

/-- A list with a defect written: not where an entry already names or covers it; the entries that it covers leave. -/
def defInsert (l : List DWord) (e : DWord) (start : Nat) : List DWord :=
  if l.any (fun x => defCovers x e || defSame x e) then l
  else
    let p := defPlaced l e start
    if l.any (fun x => defCovers x p || defSame x p) then l
    else l.filter (fun x => !defCovers p x) ++ [p]

/-- The defect list with its contents set: written to both flash devices, the generation one higher. -/
def writeDefects (s : State) (l : List DWord) : State :=
  if l = s.dl.entries then s
  else { s with dl := { s.dl with
    entries := l, generation := s.dl.generation + 1, northCopy := l, southCopy := l } }

/-- A defect written (14 R377). Origin: 0 manufacture, 1 start-up test, 2 in service, 3 image load. -/
def addDefect (s : State) (kind origin unit detail : Nat) : State :=
  let start := s.su.startCount.toNat
  writeDefects s (defInsert s.dl.entries (defEntry kind origin unit detail start) start)

/-- A retirement or replacement of Table 15.1 in service: the entry, the count of 2C20h:02h and a record of code
00h whose detail is bits [31:16] of the entry (15 R397, R412, Table 15.7). -/
def retire (s : State) (unit : UnitId) (kind detail action eng lcl : Nat) : State :=
  let e := defEntry kind 2 (unitNumber unit) detail s.su.startCount.toNat
  let s := addDefect s kind 2 (unitNumber unit) detail
  let s := { s with flt := { s.flt with retire := s.flt.retire + 1 } }
  report s unit 0 action eng lcl (bitsAt e.toNat 16 16)

/-- A retirement that a fault record of its own reports: the entry and the count (14 R377, 15 R397). -/
def noteRetired (s : State) (kind unit detail : Nat) : State :=
  let s := addDefect s kind 2 unit detail
  { s with flt := { s.flt with retire := s.flt.retire + 1 } }

/-- Whether the defect list marks a local cluster of a site retired (14 R377: kinds 5 and 15). -/
def clusterRetired (s : State) (site l : Nat) : Bool :=
  s.dl.entries.any (fun e => defUnit e == site && (defKind e == 5 || defKind e == 15) && defDetail e % 8 == l)

/-- The kind and revision of unit i of the map: sites, rim dies, maltsters. -/
def dieOf (s : State) (i : Nat) : Nat × Nat :=
  if i < 72 then (0, (tget 0 s.fuse.siteRev i).toNat)
  else if i < 88 then (1, (tget 0 s.fuse.rimRev (i - 72)).toNat)
  else (2, (tget 0 s.fuse.maltRev (i - 88)).toNat)
/-- Whether a set admits a revision of a die kind with the panel's compatibility set. -/
def setAdmits (s : State) (x : ImageSet) (d : Nat × Nat) : Bool :=
  x.compat.contains (BitVec.ofNat 32 (s.fuse.compat.toNat + 2 ^ 16 * d.2 + 2 ^ 24 * d.1))
/-- Whether the running set admits a die not. -/
def dieRefused (s : State) (i : Nat) : Bool :=
  match s.img.running with
  | some x => !setAdmits s x (dieOf s i)
  | none => false

/-- Whether a site is healthy (01 R20): no retirement, and a revision that the running set does not refuse. -/
def siteHealthy (s : State) (n : Nat) : Bool :=
  ((siteAt s n).state == .running || (siteAt s n).state == .slateIdle) &&
  !s.dl.entries.any (fun e => defUnit e == n && [3, 4, 5, 15].contains (defKind e)) && !dieRefused s n

/-! ### Emptying the machine (02 R48) -/

/-- Every remote cache line becomes invalid (08 R223). -/
def dropCaches (s : State) : State := { s with mem := { s.mem with caches := [] } }

/-- An engine with its queue, its instructions in flight, its slots and its outstanding writes gone; counters stay. -/
def flushEngine (e : EngineRec) : EngineRec :=
  { e with queue := [], flight := [], slots := [], image := [], tiles := [], slice := none, unacked := []
           overflow := false, met := false }

/-- A cluster with every queue, object and transfer gone; counters and tasks stay. -/
def flushCluster (c : Cluster) : Cluster :=
  { c with
    engines := tmap c.engines (fun _ e => flushEngine e)
    sync := [], inbox := [], switchTo := none, seqWait := false, seqMet := false, wtQueue := [], boilPost := none
    tasks := c.tasks.map (fun t => { t with
      mash := t.mash.map (fun m => { m with out0 := [], out1 := [], in0 := [], in1 := [] }) }) }

/-- Engines, queues and networks emptied and their contents discarded. Packets of the management classes belong to no frame (11
R304). -/
def flushAll (s : State) : State :=
  let s := mapClusters s (fun _ c => flushCluster c)
  { s with
    noc := { s.noc with bulk := [], sync := [], misses := [], relays := [], nodes := [] }
    fab := { s.fab with
      held := [], inbound := [], relay := []
      ordWait := s.fab.ordWait.filter (fun x => 3 ≤ x.1.cls)
      egress := s.fab.egress.filter (fun x => 3 ≤ x.sp.cls)
      sent := s.fab.sent.filter (fun x => 3 ≤ x.cls) } }

/-! ### Requests at the end of a serving job (12 R332, R335, R338) -/

/-- The link-layer address and the UDP port of the latest valid datagram from a source (12 R329). -/
def nextHop (s : State) (src : BitVec 128) : BitVec 48 × BitVec 16 :=
  match s.svc.hops.find? (fun h => h.1 == src) with
  | some h => h.2
  | none => (0, 0)

/-- The address of a port; all zero: the port answers nothing. -/
def portAddr (s : State) (p : Nat) : BitVec 128 := tget 0 s.svc.addrs p

/-- The datagram of a message that a port sends to an address (12 R329, R330). -/
def messageOut (s : State) (port : Nat) (dst : BitVec 128) (type : Nat) (rid : DWord) (body : List Byte) : UdpOut :=
  let hop := nextHop s dst
  let b := messageBytes (BitVec.ofNat 8 type) rid body
  .datagram port (ipOut hop.1 (portAddr s port) dst) s.svc.udpPort hop.2
    (udpChecksum (portAddr s port) dst s.svc.udpPort hop.2 b) b

/-- A message of the request protocol sent. -/
def sendMsg (s : State) (port : Nat) (dst : BitVec 128) (type : Nat) (rid : DWord) (body : List Byte) : State :=
  { s with out := { s.out with udp := s.out.udp ++ [messageOut s port dst type rid body] } }

/-- The body of DONE and REJECT (12 Table 12.4). -/
def doneBody (reason tokens : Nat) : List Byte := leBytes 1 reason ++ leBytes 3 0 ++ leBytes 4 tokens
def rejectBody (reason : Nat) : List Byte := leBytes 1 reason ++ leBytes 3 0

/-- What a frame decided for one request is undone: admission, entries, draws and retirement return to the last commit.
A request that the intake received meanwhile stays (12 Table 12.10). -/
def undoRequest (saved : List Request) (r : Request) : Request :=
  if r.stage == .running then
    match saved.find? (fun o => o.key == r.key && o.stage == .running) with
    | some o => { r with slot := o.slot, phase := o.phase, pos := o.pos, tokens := o.tokens, fresh := 0, retire := none }
    | none => { r with stage := .queued, slot := none, pos := 0, tokens := [], fresh := 0, retire := none }
  else { r with retire := none }

/-- The service layer at an abandonment: requests undone; slots and free page frames as the last commit left them. -/
def undoService (v : Service) : Service :=
  let rs := v.requests.map (undoRequest v.saved)
  let live (k : RequestKey) : Bool := rs.any (fun r => r.key == k && r.stage == .running)
  { v with
    requests := rs
    slots := tmap v.savedSlots (fun _ x => if x.key.any live then x else { x with key := none, ntok := 0 })
    freeFr := v.savedFree }

/-- What the end of a serving job sends to one request. -/
def endRequest (s : State) (r : Request) : State :=
  match r.stage with
  | .ended => s
  | .queued =>
    let s := sendMsg s r.port r.key.src 7 r.key.rid (rejectBody 4)
    { s with svc := { s.svc with rejected := s.svc.rejected + 1 } }
  | _ =>
    let s := sendMsg s r.port r.key.src 6 r.key.rid (doneBody 6 r.tokens.length)
    { s with svc := { s.svc with done := s.svc.done + 1 } }

/-- The requests answered as the last commit left them, and the request table emptied (12 R338; Table 12.10: no message
comes from an uncommitted frame). -/
def endService (s : State) : State :=
  let s := { s with svc := undoService s.svc }
  let s := s.svc.requests.foldl endRequest s
  { s with svc := { s.svc with requests := [], slots := [], freeFr := [], cutoff := false } }

/-! ### The end of a job -/

/-- A seam-domain reset begins: every link of the site goes down (10 R290). -/
def beginSeamReset (s : State) (n : Nat) : State :=
  setSiteLinks (modSite s n (fun r => { r with seamReq := 2 })) n .down

/-- Seam-domain resets that wait for the job's end begin (10 R290). -/
def startSeamResets (s : State) : State :=
  ((List.range 72).filter (fun n => (siteAt s n).seamReq == 1#8)).foldl beginSeamReset s

/-- Logical numbers given up (01 R448). -/
def releaseNumbers (s : State) : State :=
  let sites := (List.range 72).filter (fun n => (siteAt s n).logical.isSome)
  let s := modSites s sites (fun n r => { r with
    logical := none
    state := if r.state == .running && isSlatePos s.topo n && siteHealthy s n then .slateIdle else r.state })
  { s with topo := { s.topo with remap := [], copies := [], chiplets := 0 } }

/-- An estimator-divergence event clears at job end (13 R359). -/
def clearDivergence (p : Power) : Power :=
  { p with frozen := false, divs := [], divState := 0, divUnit := 0xFF, energyFlag := p.energyFlag &&& 2 }

/-- Ownership given up, and the change counted (16 R427). -/
def clearOwner (s : State) : State :=
  if s.dict.owner.isNone then s
  else { s with dict := { s.dict with owner := none, ownerSince := s.dict.ownerSince + 1 } }

/-- The job gone: its numbers, its clusters' records and its plan (01 R448; 04 R117; 09 R265; 16 R427). -/
def finishJob (s : State) : State :=
  let s := releaseNumbers s
  let s := startSeamResets s
  let s := dropCaches s
  let s := if s.job.revokeOwner then clearOwner s else s
  { s with
    clusters := []
    casks := tmap s.casks (fun _ r => { r with lowest := 0, degraded := [] })
    mem := { dropCopies s.mem with written := [], pending := [], dark := [], darkIn := [] }
    fab := { s.fab with circuits := 0, rings := 0, closedSeg := [], sick := [] }
    power := clearDivergence s.power
    tick := { s.tick with issueOn := false, holds := 0, overrun := false, recovery :=
        { active := false, takeovers := [], repeatAt := [], since := none, edges := 0 } }
    job := { s.job with
      state := .none, placedBy := none, plan := none, copiesDone := false, endAtCommit := false
      revokeOwner := false, faultAt := none } }

/-- The OR of every cluster's flags (15 R414). -/
def allFlags (s : State) : BitVec 16 := s.clusters.foldl (fun a c => a ||| c.2.flags) 0

/-- The end of the job held (15 R414, 02 R56, 16 R430). Reason 1: completed; 2: by command; 3: by fault. Every
frame in progress is discarded; in ride-through mode the write-out follows. A job that has not begun its first frame
ends at once, with start-refusal reason 30h where a fault ends it. -/
def endJob (s : State) (reason code : Nat) : State :=
  if s.job.state == .none || s.job.state == .ending then s
  else
    let starting := s.job.state == .starting
    let serving := match s.job.plan with
      | some p => p.plan.isSome
      | none => false
    let s := { s with
      job := { s.job with
        state := .ending
        endReason := BitVec.ofNat 8 reason
        endFault := BitVec.ofNat 8 code
        endFlags := allFlags s
        endFrames := s.tick.committed
        takeovers := s.topo.remapGen
        refusal := if starting && reason == 3 then 0xFFFF0030 else s.job.refusal }
      can := if reason = 3 then { s.can with errorReg := s.can.errorReg ||| 0x80 } else s.can }
    let s := if serving then endService s else s
    let s := dropCaches (flushAll s)
    let s := { s with
      mem := clearMarks s.mem
      tick := { s.tick with issueOn := false, phase := .idle, votes := [], overrun := false, recovery :=
        { active := false, takeovers := [], repeatAt := [], since := none, edges := 0 } } }
    let s := mapClusters s (fun _ c => { c with seq := if c.seq == .stopped then .stopped else .noJob })
    if rideThrough s && !starting then s else finishJob s

/-- The end of a job whose uncommitted frame leaves carry unspecified in capacity mode (02 R47). -/
def endJobSpoilt (s : State) (reason code : Nat) : State :=
  endJob (if rideThrough s then s else spoilCarry s) reason code

/-- A revoke of a held job (16 R427): the job ends as job control code 03h does, and then the owner is cleared. -/
def revokeJob (s : State) : State :=
  clearOwner (endJobSpoilt { s with job := { s.job with revokeOwner := false } } 2 0)

/-! ### Abandonment and replay (02 R48, 15 R400, R401) -/

/-- Steps 1, 2 and 5 of a recovery: issue stops, everything is emptied, caches are invalid, pending marks clear. -/
def abandon (s : State) (at_ : Option Time) : State :=
  let first := !s.tick.recovery.active
  let s := dropCaches (flushAll s)
  let s := mapClusters s (fun _ c => { c with
    seq := if c.seq == .noJob then c.seq else .recovering
    diag := if c.diag.state = 2 && c.diag.frame == s.tick.seq.extractLsb' 0 32 then { c.diag with state := 3 } else c.diag })
  { s with
    mem := clearMarks s.mem
    svc := undoService s.svc
    job := { s.job with faultAt := if first then at_ else s.job.faultAt }
    tick := { s.tick with
      issueOn := false, phase := if s.tick.phase == .census then .census else .idle, votes := [], overrun := false
      abandoned := if first then s.tick.abandoned + 1 else s.tick.abandoned
      recovery := { s.tick.recovery with active := true, since := at_, edges := 0 } } }

/-! ### Words that the rim dies correct (08 R240, Table 8.9) -/

/-- A word healed from its copies, by key. -/
def healKeys (s : State) (ks : List Nat) : State := { s with mem := healUpsets s.mem ks }

/-- The corrected words of n bytes of a stack counted and rewritten, each a haze event. -/
def fixStack (s : State) (n a len : Nat) : State :=
  let fixed := (upsetsIn s.mem 0 a len).filter (fun u => u.2 == .single)
  if fixed.isEmpty then s
  else modStack (haze (healKeys s (fixed.map Prod.fst)) fixed.length) n
    (fun r => { r with corrected := r.corrected + BitVec.ofNat 64 fixed.length })

/-! ### Takeover (01 R30, R31; 15 R403) -/

/-- The distance of two rows. -/
def rowGap (a b : Nat) : Nat := max a b - min a b

/-- The replacement slate for a failed site: its own row's, then the nearest of its half, then of the other half,
the lower site number winning a tie (01 R30). A slate that failed image verification is never chosen (15 R402). -/
def chooseSlate (s : State) (failed : Nat) : Option Nat :=
  let idle := (List.range 72).filter (fun n => (siteAt s n).state == .slateIdle && siteHealthy s n && n != failed
    && (siteAt s n).logical.isNone)
  let row := idle.filter (fun n => siteRow n == siteRow failed)
  let nearest (l : List Nat) : Option Nat :=
    l.foldl (fun b n => match b with
      | none => some n
      | some m => if rowGap (siteRow n) (siteRow failed) < rowGap (siteRow m) (siteRow failed) then some n else some m) none
  match nearest row with
  | some n => some n
  | none =>
    match nearest (idle.filter (fun n => siteHalf n == siteHalf failed)) with
    | some n => some n
    | none => nearest (idle.filter (fun n => siteHalf n != siteHalf failed))

/-- The failed site's new state: forward-only, or dark where its seam domain has failed. -/
def failSite (s : State) (n : Nat) (dark : Bool) : State :=
  modSite s n (fun r => { r with
    logical := none
    state := if dark || r.state == .dark then .dark else .forwardOnly })

/-- A takeover of logical chiplet m from a failed site: the slate chosen, the entry rewritten in every copy, the
failed site retired, diagnostic arming moved, the slate's gains at 1. Without a slate, fault 16h ends the job. -/
def takeover (s : State) (m failed : Nat) (dark : Bool) : State :=
  match chooseSlate s failed with
  | none =>
    let s := failSite s failed dark
    endJob (report s .module 0x16 actEnd noEngine 0 0) 3 0x16
  | some n =>
    let s := failSite s failed dark
    let s := modSite s n (fun r => { r with state := .running, logical := some m, viaTakeover := true })
    let source := match s.tick.recovery.takeovers.find? (fun t => t.chiplet == m) with
      | some t => t.failed
      | none => failed
    let cl := (List.range 8).map (fun l => 8 * m + l)
    let s := mapClusters s (fun k c =>
      if cl.contains k && 0 < c.diag.state then
        { c with diag := { c.diag with state := 1, capture := [], seen := 0, free := false, isOpen := false
                                       group := 0, frame := 0 } }
      else c)
    { s with
      topo := { setRemap s.topo (tset s.topo.remap m { site := BitVec.ofNat 7 n, valid := true, subst := true }) with
        remapGen := s.topo.remapGen + 1 }
      power := { s.power with
        gains := s.power.gains.filter (fun g => g.1 / 4 != n)
        divs := terase s.power.divs n }
      tick := { s.tick with recovery := { s.tick.recovery with
        takeovers := s.tick.recovery.takeovers.filter (fun t => t.chiplet != m) ++
          [{ chiplet := m, failed := source, slate := n, released := false }] } } }

/-! ### The fault path (15 R398, Table 15.2) -/

/-- Whether a fault code ends the job in ride-through mode too. -/
def endsAlways (code : Nat) : Bool := !([1, 2, 3, 4, 5, 6, 9, 0x0A, 0x15].contains code)

/-- A fault without takeover: the record, then the end of the job, or abandonment and replay. With no job held only
the record is written. -/
def raise (s : State) (unit : UnitId) (code eng lcl detail : Nat) (at_ : Option Time) : State :=
  if !jobHeld s || s.job.state == .ending then report s unit code actNone eng lcl detail
  else if s.job.state == .starting || !rideThrough s || endsAlways code then
    endJob (report s unit code actEnd eng lcl detail) 3 code
  else abandon (report s unit code actReplay eng lcl detail) at_

/-- A fault of a site that a slate takes over (codes 03h to 05h). A site that holds no logical chiplet is only
retired. -/
def raiseSite (s : State) (n : Site) (code eng lcl detail : Nat) (dark : Bool) (at_ : Option Time) : State :=
  match (siteAt s n.val).logical with
  | none => failSite (report s (.site n) code actNone eng lcl detail) n.val dark
  | some m =>
    if s.job.state == .running && rideThrough s then
      takeover (abandon (report s (.site n) code actTakeover eng lcl detail) at_) m n.val dark
    else
      let s := raise s (.site n) code eng lcl detail at_
      failSite s n.val dark

/-! ### Stream and address faults (01 R27, 04 R116) -/

/-- A stream fault word (04 Table 4.16). -/
def streamFaultWord (code engine pc : Nat) : Word := BitVec.ofNat 32 (code % 256 + 2 ^ 8 * (engine % 16) + 2 ^ 12 * (pc % 2 ^ 20))

/-- The site that holds a cluster, as a unit; the module where none does. -/
def clusterUnit (s : State) (k : Nat) : UnitId :=
  match clusterSite s k with
  | some n => if h : n < 72 then .site ⟨n, h⟩ else .module
  | none => .module

/-- A stream fault: the cluster stops, its first fault is recorded, and the job ends in both frame modes with no
replay (04 R116, fault 0Eh). -/
def streamFault (s : State) (k code engine pc : Nat) : State :=
  let w := streamFaultWord code engine pc
  let s := modCluster s k (fun c => { c with
    seq := .stopped, faultWord := if c.faultWord = 0#32 then w else c.faultWord })
  raise s (clusterUnit s k) 0x0E (if engine < 11 then engine else noEngine) (k % 8) w.toNat none

/-- An address fault raised against an engine: the full address and kind (0 read, 1 write, 2 signal) in the
cluster's object, code 09h in its stream fault word, and fault 0Fh, which ends the job (01 R27, 15 Table 15.8). -/
def addressFault (s : State) (k engine pc addr kind : Nat) : State :=
  let w := streamFaultWord 9 engine pc
  let s := modCluster s k (fun c => { c with
    faultWord := if c.faultWord = 0#32 then w else c.faultWord
    addrFault := BitVec.ofNat 64 (addr % 2 ^ 48 + 2 ^ 48 * (engine % 16) + 2 ^ 52 * (kind % 4)) })
  raise s (clusterUnit s k) 0x0F (if engine < 11 then engine else noEngine) (k % 8) (addr / 64 % 2 ^ 32) none

end Sys2Proof.Machine
end

