-- ==== Sys2Proof/Machine/Route.lean ====
section
/-!
DEFINITION. Homes of addresses, and the travel of packets over the panel: injection, hops, buffers, ages and route faults
(spec 01 R28, R29; 10 R270 to R276, R286, R289, R291).
-/
namespace Sys2Proof.Machine
open Sys2Proof

/-- The unit that is home to a module address, as a source translates it (01 R29). -/
def homeUnit (s : State) (src a : Nat) : Nat :=
  match placeOf a with
  | .stack n _ => 72 + n
  | .pad k _ => (siteBy s src (k / 8)).getD 0
  | .clusterPage k _ => (siteBy s src (k / 8)).getD 0
  | .chipletPage m _ => (siteBy s src m).getD 0
  | .rimPage n _ => 72 + n
  | .reserved => 0
/-- The local cluster at the home of an address. -/
def homeLocal (a : Nat) : Nat :=
  match placeOf a with
  | .pad k _ => k % 8
  | .clusterPage k _ => k % 8
  | _ => 0
/-- The unit of a cluster. -/
def clusterHome (s : State) (k : Nat) : Nat := (clusterSite s k).getD 0

/-- A route fault (10 R274, 15 fault 0Bh): counted at the source; a destination site is marked for the next job. -/
def routeFault (s : State) (u dest : Nat) : State :=
  let s := if u < 72 then modSite s u (fun r => { r with unreach := r.unreach + 1 }) else s
  let s := if dest < 72 then modSite s dest (fun r => { r with cut := true }) else s
  raise s (unitId u) 0x0B noEngine 0 0 none

/-- A packet that leaves a site on a route other than the primary is counted (10 Table 10.8). -/
def countFallback (s : State) (a : Nat) (primary : Bool) : State :=
  if primary || isRim a then s else modSite s a (fun r => { r with fallbacks := r.fallbacks + 1 })

/-- A packet at its source, with the hops of its route. -/
def Transit.begin_ (a b u : Nat) (hops : List Hop) (held : Bool) : Transit :=
  { at_ := a, dest := b, loc := u, hops := hops, held := held, buffer := none, age := 0 }

/-- A packet injected at its source, which fixes its route (10 R274): put on the network by `put`, or held at the source
behind a closed direction or behind an earlier packet of its pair that is held. Without a route the fault stands in its
place. Once no frame runs, nothing is sent. -/
def inject (s : State) (a b u : Nat) (waiting : Bool) (put : State → Transit → State) : State :=
  if !jobRunning s then s
  else match passage s a b u with
    | .unreachable => routeFault s a b
    | .held hops => put s (Transit.begin_ a b u hops true)
    | .through hops primary =>
      if waiting then put s (Transit.begin_ a b u hops true)
      else put (countFallback s a primary) (Transit.begin_ a b u hops false)

/-- A 10-bit age raised, with saturation (10 R276). -/
def ageBy (age : BitVec 10) (n : Nat) : BitVec 10 := BitVec.ofNat 10 (min 1023 (age.toNat + n))

/-- Flits of a virtual channel's buffer (10 R273). -/
def bufferFlits : Nat := 16

/-- The hops of a packet taken in turn, until a paused direction or a full buffer stops it: each adds 16 to the age, and the
cycles waited at its arbiter 1 each (10 R276, R285). `full h` says that the buffer behind a hop has no room; `waits` gives
the cycles waited. -/
def hopOn (s : State) (full : Hop → Bool) (waits : Nat) : Transit → List Hop → Transit
  | w, [] => { w with hops := [] }
  | w, h :: r =>
    if (linkAt s h.key).paused || full h then { w with hops := h :: r }
    else hopOn s full waits { w with at_ := keyPeer h.key, buffer := some h, age := ageBy w.age (16 + waits) } r

/-- A held packet released at its source once no direction of its route is closed there: on the route that the source now
chooses (10 Table 10.7, Table 10.10). -/
def releaseWay (s : State) (w : Transit) : State × Option Transit :=
  if crossesClosed s w.at_ w.hops then (s, some w)
  else match passage s w.at_ w.dest w.loc with
    | .unreachable => (routeFault s w.at_ w.dest, none)
    | .held hops => (s, some { w with hops := hops })
    | .through hops primary => (countFallback s w.at_ primary, some { w with hops := hops, held := false })

/-- A packet of a network moved as far as it goes. Its route is fixed once it has left its source. The cycles waited are a
free value. None: its source found no route. -/
def moveOn (s : State) (full : Hop → Bool) (w : Transit) : State × Option Transit :=
  let r := if w.held then releaseWay s w else (s, some w)
  match r.2 with
  | none => (r.1, none)
  | some w =>
    if w.held || w.hops.isEmpty then (r.1, some w)
    else
      let d := drawNat r.1
      (d.2, some (hopOn d.2 full d.1 w w.hops))

/-- Whether a packet stands at its destination. -/
def Transit.arrived (w : Transit) : Bool := !w.held && w.hops.isEmpty

end Sys2Proof.Machine
end

