-- ==== Sys2Proof/Machine/Sync.lean ====
section
/-!
DEFINITION. Sync objects, waits, signals and the bulk network as engines see it (spec 09; 04 R98 to R100, R112;
08 R235, R236; 10 R275).
-/
namespace Sys2Proof.Machine
open Sys2Proof

/-! ### Waits (09 R246) -/

/-- No object: the code 111111b (04 Table 4.3). -/
def noObj : Nat := 63

/-- Waiters judged in the order in which they began to wait: each whose units fit takes them. What is left of the value, who
still waits, and whose waits are met. -/
def judgeWaiters : List (Nat × Nat) → Nat → Nat × List (Nat × Nat) × List Nat
  | [], v => (v, [], [])
  | (w, n) :: r, v =>
    if n ≤ v then
      let x := judgeWaiters r (v - n)
      (x.1, x.2.1, w :: x.2.2)
    else
      let x := judgeWaiters r v
      (x.1, (w, n) :: x.2.1, x.2.2)

/-- The waiter code of the sequencer (09 Table 9.4a). -/
def seqWaiter : Nat := 11

/-- A waiter whose wait is met: an engine, or the sequencer. -/
def markMet (c : Cluster) (who : Nat) : Cluster :=
  if who = seqWaiter then { c with seqMet := true } else c.modEngine who (fun r => { r with met := true })

/-- The waits on an object judged: the value falls by the units of each wait that is met (09 R246). -/
def judgeObj (c : Cluster) (j : Nat) : Cluster :=
  let o := c.syncObj j
  let x := judgeWaiters o.waiters o.value.toNat
  if x.2.2.isEmpty then c
  else x.2.2.foldl markMet (c.modSync j (fun o => { o with value := BitVec.ofNat 16 x.1, waiters := x.2.1 }))

/-- A waiter joins, once, behind those that began before it. -/
def joinWait (o : SyncObj) (who n : Nat) : SyncObj :=
  if o.waiters.any (fun w => w.1 == who) then o else { o with waiters := o.waiters ++ [(who, n)] }

/-- A wait that begins: it is judged at once. Commands come one at a time, so no two waits begin in one cycle. -/
def beginWait (c : Cluster) (who j n : Nat) : Cluster := judgeObj (c.modSync j (fun o => joinWait o who n)) j

/-- The instruction that comes to the head of an engine's queue begins its wait. -/
def joinHead (c : Cluster) (e : Nat) : Cluster :=
  match (c.engine e).queue with
  | [] => c
  | q :: _ => if wWaitObj q.word = noObj then c else beginWait c e (wWaitObj q.word) (wWaitN q.word)

/-! ### Signals (09 R245, R249, R250; 04 R112) -/

/-- A signal on the live objects of a cluster, with the saturation count; then the waits are judged. -/
def signalLive (c : Cluster) (g : Signal) : Cluster :=
  let o := c.syncObj g.obj
  judgeObj { c.modSync g.obj (fun o => signalObj o g) with
    satur := if signalSaturates o g then c.satur + 1 else c.satur } g.obj

/-- The address of a task's context area. -/
def contextAddr (k : Nat) (t : Task) : Nat := padAddr k t.entry.context
/-- The address of object j in a task's sync image (04 Table 4.12). -/
def imageAddr (k : Nat) (t : Task) (j : Nat) : Nat := contextAddr k t + 0x80 + 8 * j

/-- The object that a sync image holds (04 Table 4.12). -/
def syncOfImage (b : List Byte) : SyncObj where
  value := BitVec.ofNat 16 (fieldAt b 0 2)
  ovf := bitAt (fieldAt b 0 4) 16
  unf := bitAt (fieldAt b 0 4) 17
  last := BitVec.ofNat 32 (fieldAt b 4 4)
  waiters := []
/-- An object as a sync image holds it: bits [31:18] stored as 0 (09 R255). -/
def syncToImage (o : SyncObj) : List Byte :=
  leBytes 4 (o.value.toNat + (if o.ovf then 2 ^ 16 else 0) + (if o.unf then 2 ^ 17 else 0)) ++ leBytes 4 o.last.toNat

/-- A signal on the sync image of a task that is not resident. -/
def signalImage (s : State) (k : Nat) (t : Task) (g : Signal) : State :=
  let a := imageAddr k t g.obj
  let o := syncOfImage (readBytes s a 8)
  let s := storePlain s a (syncToImage (signalObj o g))
  modCluster s k (fun c => { c with satur := if signalSaturates o g then c.satur + 1 else c.satur })

/-- A signal at its destination: on the resident task's live objects, or on the task's image (04 R112). -/
def applySignal (s : State) (g : Signal) : State :=
  let c := clusterAt s g.dstK
  if g.task = c.resident then modCluster s g.dstK (fun c => signalLive c g)
  else if c.hasTask g.task then signalImage s g.dstK (c.task g.task) g
  else s

/-- Whether step 1 of a task switch has ended: a YIELD waits for its task's instructions and their acknowledgements, for
its mash transfers and for a full slice buffer (04 R110; 06 R164, Table 6.17). -/
def switchReady (c : Cluster) : Bool :=
  c.switchKind != 0 || (c.quiet && !mashMoving c && c.engines.all (fun e => e.2.slice.isNone))

/-- A signal that arrives by MSIG: counted; into the inbox during steps 2 to 4 of a task switch, unless the inbox of
64 is full, when the network holds it back (no state). -/
def receiveSignal (s : State) (g : Signal) : Option State :=
  let c := clusterAt s g.dstK
  if c.seq == .switching && switchReady c then
    if c.inbox.length < 64 then
      some (modCluster s g.dstK (fun c => { c with inbox := c.inbox ++ [g], remoteSig := c.remoteSig + 1 }))
    else none
  else some (applySignal (modCluster s g.dstK (fun c => { c with remoteSig := c.remoteSig + 1 })) g)

/-- The local signal of SIG_OBJ (04 R100): always an add, of the cluster to itself. -/
def localSignal (s : State) (k e : Nat) (q : QInstr) : State :=
  if wSigObj q.word = noObj then s
  else applySignal s { srcK := k, srcE := e, dstK := k, task := q.task, obj := wSigObj q.word, op := 0
                       amount := wSigN q.word, circ := 0, unf := false, relay := none, remote := false }

/-! ### Bulk writes of the job (08 R218, R235, R236; 09 R251) -/

/-- A packet set out on the bulk network from unit a to unit b and its local cluster u. -/
def sendBulk (s : State) (a b u : Nat) (p : Transit → BulkPacket) : State :=
  inject s a b u false (fun s w => { s with noc := { s.noc with bulk := s.noc.bulk ++ [p w] } })

/-- A carry line sent to copy c of its cluster's backing, which stack n holds (08 R235). -/
def sendThrough (s : State) (k line ord c n : Nat) : State :=
  let data := latestBytes s (64 * line) 64
  sendBulk s (clusterHome s k) (72 + n) 0 (fun w =>
    { kind := .writeThrough c, k := k, e := 15, task := 0, ord := ord, addr := 64 * line, lines := 1, data := data
      relay := none, way := w })

/-- A carry line into its cluster's write-through queue, and on its way to both backing stacks. -/
def throughLine (k : Nat) (s : State) (line : Nat) : State :=
  match backingOf s (k / 8) with
  | none => s
  | some b =>
    let n := s.noc.nextId
    let s := modCluster { s with noc := { s.noc with nextId := n + 1 } } k (fun c =>
      { c with wtQueue := c.wtQueue ++ [{ line := line, left := [1, 2] }] })
    sendThrough (sendThrough s k line n 1 b.1) k line n 2 b.2

/-- A cluster write to its own scratchpad; each carry line that it touches in ride-through mode goes to the backing
copies too. -/
def padWrite (s : State) (k a : Nat) (bs : List Byte) : State :=
  let carry := rideThrough s && (regionOf s a).isSome
  let s := writeBytes s a bs
  if carry then
    ((List.range (ceilDiv (a % 64 + bs.length) 64)).map (fun i => a / 64 + i)).foldl (throughLine k) s
  else s

/-- Writes of an engine to its own scratchpad. -/
def padWrites (s : State) (k : Nat) : List Write → State
  | [] => s
  | w :: r => padWrites (padWrite s k w.1 w.2) k r

/-- Pairs of a line. -/
def linePairs (bs : List Byte) : List DWord := (chunksOf 8 bs).map (fun b => BitVec.ofNat 64 (leNat b))
/-- The bytes of pairs. -/
def pairBytes (ps : List DWord) : List Byte := ps.flatMap (fun p => leBytes 8 p.toNat)

/-- Two lists of pairs merged, with the flags (03 R81). -/
def mergeLines (a b : List DWord) : List DWord × Flags :=
  let rs := List.zipWith mergePair a b
  (rs.map Prod.fst, rs.foldl (fun f r => f ||| r.2) flagNone)

/-- A line merged at its home (08 R218): the bytes to store and the flags. -/
def mergeAt (s : State) (a : Nat) (data : List Byte) : List Byte × Flags :=
  let r := mergeLines (linePairs (readBytes s a 64)) (linePairs data)
  (pairBytes r.1, r.2)

/-! ### Data errors (08 R239, R241) -/

/-- The first of some copies of a line that holds no uncorrectable word. -/
def goodCopy (s : State) (cs : List Nat) (line : Nat) : Option Nat :=
  cs.find? (fun c => !(upsetsIn s.mem c (64 * line) 64).any (fun u => u.2 == .double))

/-- A scratchpad carry line restored from its primary backing copy, else from the secondary; none where both are bad (08 R241). -/
def restorePad (s : State) (word : Nat) : Option State :=
  match keyAddr s (8 * word) with
  | none => none
  | some a => (goodCopy s [1, 2] (a / 64)).map (fun c => restoreLine s (word / 8) (copyLine s c (a / 64)))

/-- The unit of a cluster's site, counted with a data error of its memories. -/
def countPadError (s : State) (k : Nat) : State :=
  match clusterSite s k with
  | some n => modSite s n (fun r => { r with padErr := r.padErr + 1 })
  | none => s

/-- A data error in scratchpad or in an engine's memories (fault 02h). The word is identified by its key; a repeat
in the replay is permanent: the cluster is retired (fault 03h). A carry word with no good copy is fault 08h; one with a
good copy is restored from it. -/
def dataErrorPad (s : State) (k eng key line : Nat) : State :=
  let s := countPadError s k
  if jobRunning s && rideThrough s && s.tick.recovery.repeatAt.contains key then
    match clusterSite s k with
    | some n =>
      if h : n < 72 then
        let s := noteRetired s 5 n (k % 8)
        raiseSite s ⟨n, h⟩ 3 eng (k % 8) 0 false none
      else s
    | none => s
  else
    let carry := jobRunning s && rideThrough s && keyInCarry s (8 * key)
    match if carry then restorePad s key else some s with
    | none => raise s (clusterUnit s k) 8 eng (k % 8) 0 none
    | some s =>
      let s := raise s (clusterUnit s k) 2 eng (k % 8) line none
      { s with tick := { s.tick with recovery := { s.tick.recovery with
          repeatAt := if s.tick.recovery.active then setInsert key s.tick.recovery.repeatAt else [] } } }

/-- The words of a scratchpad range as the bank checks them: corrected words are counted and rewritten; the first
uncorrectable word is answered. -/
def checkPad (s : State) (k a n : Nat) : State × Option Nat :=
  let us := upsetsIn s.mem 0 (memKey s a) n
  let fixed := us.filter (fun u => u.2 == .single)
  let s := if fixed.isEmpty then s else
    let s := haze (healKeys s (fixed.map Prod.fst)) fixed.length
    match clusterSite s k with
    | some m => modSite s m (fun r => { r with padFix := r.padFix + BitVec.ofNat 64 fixed.length })
    | none => s
  (s, (us.find? (fun u => u.2 == .double)).map Prod.fst)

/-- The parts of a range that a bank reads: all of a read, and of a write the words of which it writes only a part (08 R240). -/
def Range.read (r : Range) : List (Nat × Nat) :=
  if !r.write then [(r.addr, r.len)]
  else if r.len = 0 then []
  else
    let last := r.addr + r.len - 1
    (if r.addr % 8 = 0 && 8 ≤ r.len then [] else [(r.addr / 8 * 8, 8)]) ++
    (if last % 8 = 7 || last / 8 = r.addr / 8 then [] else [(last / 8 * 8, 8)])

/-- Byte ranges checked in turn; the first uncorrectable word, if there is one. -/
def checkParts (s : State) (k : Nat) : List (Nat × Nat) → State × Option Nat
  | [] => (s, none)
  | r :: rs =>
    let p := checkPad s k r.1 r.2
    match p.2 with
    | some w => (p.1, some w)
    | none => checkParts p.1 k rs

/-- Everything that the ranges of an instruction read, checked. -/
def checkRanges (s : State) (k : Nat) (rs : List Range) : State × Option Nat := checkParts s k (rs.flatMap Range.read)

/-! ### Starting and completing instructions (04 R98, R99) -/

/-- Whether engines of a cluster may start instructions: frames run, outside any recovery. The tick edge stops issue,
not the engines (02 Table 2.3). -/
def mayStart (s : State) (k : Nat) : Bool :=
  jobRunning s && !s.tick.recovery.active && clusterHeld s k

/-- The head of an engine's queue, where it may start: its opcode is the command's and its wait has been met. -/
def readyHead (s : State) (k e op : Nat) : Option QInstr :=
  if mayStart s k then
    match (engineAt s k e).queue with
    | [] => none
    | q :: _ =>
      if wOpcode q.word = op then
        if wWaitObj q.word = noObj || (engineAt s k e).met then some q else none
      else none
  else none

/-- The slot that diagnostic mode would capture from an engine, as it stands; none where the cluster is not armed on it. -/
def watchedSlot (c : Cluster) (e : Nat) : Option Slot :=
  let d := c.diag.control.toNat
  if c.diag.state = 1 && bitsAt d 1 4 = e then tfind (c.engine e).slots (bitsAt d 5 3) else none

/-- An instruction started: it leaves the queue and is in flight; the next head begins to wait. -/
def startInstr (s : State) (k e : Nat) (q : QInstr) (reads : Nat) : State :=
  modCluster s k (fun c =>
    joinHead (c.modEngine e (fun r => { r with
      queue := r.queue.tail
      met := false
      flight := r.flight ++ [{ instr := q, upTo := r.issued, reads := reads, before := watchedSlot c e }] })) e)

/-- The effect of an engine instruction whose ranges are legal and readable; an address fault or a data error stands
in its place otherwise. -/
def guarded (s : State) (k e : Nat) (q : QInstr) (rs : List Range) (eff : State → State) : State :=
  match firstFault s rs with
  | some f => addressFault s k e q.pc f.1 (if f.2 then 1 else 0)
  | none =>
    let p := checkRanges s k rs
    match p.2 with
    | some key => dataErrorPad p.1 k e key (key * 8 % padWindow / 64)
    | none => eff p.1

/-- Whether an effect must wait for the write-through queue of its cluster: the queue is full, and the effect would put more
carry lines into it (08 R235). -/
def throughHeld (s t : State) (k : Nat) : Bool :=
  1024 ≤ (clusterAt s k).wtQueue.length && (clusterAt s k).wtQueue.length < (clusterAt t k).wtQueue.length

/-- One engine command: the head of the engine's queue starts, where it is this instruction, may start and meets the
extra condition, and takes its effect, unless the effect waits for the write-through queue. -/
def runEngine (s : State) (k e op : Nat) (cond : State → QInstr → Bool) (eff : State → QInstr → State) : State :=
  match readyHead s k e op with
  | none => s
  | some q =>
    if cond s q then
      let t := eff (startInstr s k e q 0) q
      if throughHeld s t k then s else t
    else s

/-- No extra condition. -/
def always (_ : State) (_ : QInstr) : Bool := true

end Sys2Proof.Machine
end

