-- ==== Sys2Proof/Machine/FabricSend.lean ====
section
/-!
DEFINITION. Fabric headers, rings and circuits, and the sending of packets (spec 11 R302 to R316).
-/
namespace Sys2Proof.Machine
open Sys2Proof

/-! ### Headers (11 Tables 11.5 to 11.8) -/

/-- A field of a header. -/
def hfld (h : BitVec 128) (lo n : Nat) : Nat := bitsAt h.toNat lo n
def hType (h : BitVec 128) : Nat := hfld h 0 4
def hOrd (h : BitVec 128) : Bool := bitAt h.toNat 4
def hCe (h : BitVec 128) : Bool := bitAt h.toNat 5
def hDl (h : BitVec 128) : Bool := bitAt h.toNat 6
def hTag (h : BitVec 128) : Nat := hfld h 8 16
def hCirc (h : BitVec 128) : Nat := hfld h 24 8
def hSmod (h : BitVec 128) : Nat := hfld h 32 12
def hDmod (h : BitVec 128) : Nat := hfld h 44 12
def hDir (h : BitVec 128) : Nat := hfld h 56 4
def hLeg (h : BitVec 128) : Nat := hfld h 60 2
def hAddr (h : BitVec 128) : Nat := hfld h 64 42
def hLines (h : BitVec 128) : Nat := hfld h 106 7
def hScl (h : BitVec 128) : Nat := hfld h 113 9
def hSeng (h : BitVec 128) : Nat := hfld h 122 4
def hRly (h : BitVec 128) : Bool := bitAt h.toNat 126
def hErr (h : BitVec 128) : Bool := bitAt h.toNat 127

/-- 1 for true. -/
def bit (b : Bool) : Nat := if b then 1 else 0

/-- The low half of a header. -/
def headerLow (type : Nat) (ord ce dl : Bool) (tag circ smod dmod dir leg : Nat) : Nat :=
  type + 2 ^ 4 * bit ord + 2 ^ 5 * bit ce + 2 ^ 6 * bit dl + 2 ^ 8 * (tag % 2 ^ 16) + 2 ^ 24 * (circ % 256)
    + 2 ^ 32 * (smod % 4096) + 2 ^ 44 * (dmod % 4096) + 2 ^ 56 * (dir % 16) + 2 ^ 60 * (leg % 4)
/-- The high half of a bulk header. -/
def headerBulk (addrl lines scl seng : Nat) (rly err : Bool) : Nat :=
  addrl % 2 ^ 42 + 2 ^ 42 * (lines % 128) + 2 ^ 49 * (scl % 512) + 2 ^ 58 * (seng % 16) + 2 ^ 62 * bit rly
    + 2 ^ 63 * bit err
/-- The high half of a sync header. `lines` is the relay lines minus 1. -/
def headerSync (g : Signal) (lines : Nat) : Nat :=
  g.dstK % 512 + 2 ^ 9 * (g.obj % 64) + 2 ^ 15 * (g.task % 4) + 2 ^ 17 * (g.op % 4) + 2 ^ 19 * (g.amount % 65536)
    + 2 ^ 35 * (g.srcK % 512) + 2 ^ 44 * (g.srcE % 16) + 2 ^ 48 * bit g.unf + 2 ^ 49 * bit g.relay.isSome
    + 2 ^ 50 * (lines % 4096)
/-- A header of its halves. -/
def mkHeader (low high : Nat) : BitVec 128 := BitVec.ofNat 128 (low + 2 ^ 64 * high)
/-- A header with some of its low bits changed: DIR, LEG, DL and CE. -/
def reHeader (h : BitVec 128) (ce dl : Bool) (dir leg : Nat) : BitVec 128 :=
  mkHeader (headerLow (hType h) (hOrd h) ce dl (hTag h) (hCirc h) (hSmod h) (hDmod h) dir leg) (h.toNat / 2 ^ 64)

/-- The class code of a packet type (11 Tables 11.6, 11.10). -/
def typeClass (t : Nat) : Nat :=
  if t ≤ 2 then 0 else if t = 3 then 1 else if t = 4 then 2 else if t = 6 then 4 else 3

/-- The module's own ID. -/
def myModule (s : State) : Nat := s.fab.moduleId.toNat
/-- The frame tag (02 R59). -/
def frameTag (s : State) : Nat := s.tick.seq.toNat % 65536

/-! ### Rings and circuits (11 R306 to R310) -/

/-- Whether a circuit's primary or alternate route crosses this module: it is a member of a ring of one of the legs
(11 R309). -/
def circuitHere (s : State) (p : JobPlan) (c : Circuit) : Bool :=
  c.legs.any (fun l => p.rings.any (fun r => r.number == l.ring && r.members.any (fun m => m.1 == myModule s)))
/-- A circuit that the job installed here. -/
def circuitAt (s : State) (c : Nat) : Option Circuit :=
  match s.job.plan with
  | some p => p.circuits.find? (fun x => x.number == c && circuitHere s p x)
  | none => none
/-- A ring of the job. -/
def ringAt (s : State) (r : Nat) : Option Ring :=
  match s.job.plan with
  | some p => p.rings.find? (fun x => x.number == r)
  | none => none
/-- The far module of a circuit, where this module is one of its ends. -/
def circuitPeer (s : State) (c : Nat) : Option Nat :=
  match circuitAt s c with
  | none => none
  | some x => if x.modA = myModule s then some x.modB else if x.modB = myModule s then some x.modA else none

/-- The two ports of a rim die: towards the previous member and towards the next. -/
def rimPorts (n : Nat) : Nat × Nat := if n < 8 then (2 * n, 2 * n + 1) else (16 + 2 * (n - 8), 17 + 2 * (n - 8))

/-- The legs of a circuit in the order in which a packet to its MODB (rising) or its MODA travels them, each with
its entry and exit. -/
def legsTravelled (c : Circuit) (rising : Bool) : List Leg :=
  if rising then c.legs else c.legs.reverse.map (fun l => { l with inn := l.out, out := l.inn })

/-- The segments of a leg from entry to exit upwards or downwards; segment i joins members i and i + 1. -/
def legSegments (ring : Ring) (l : Leg) (up : Bool) : List (Nat × Nat) :=
  let n := ring.members.length
  if n = 0 then []
  else if up then (List.range ((l.out + n - l.inn) % n)).map (fun t => (ring.number, (l.inn + t) % n))
  else (List.range ((l.inn + n - l.out) % n)).map (fun t => (ring.number, (l.inn + n - 1 - t) % n))

/-- Whether the primary direction of a leg is upwards: the shorter way, a tie upwards (11 R307). -/
def legUp (ring : Ring) (l : Leg) : Bool := (legSegments ring l true).length ≤ (legSegments ring l false).length

/-- The direction chosen for a leg: whether it is the alternate; none where neither is healthy (11 R310). -/
def legChoice (s : State) (l : Leg) : Option Bool :=
  match ringAt s l.ring with
  | none => none
  | some r =>
    let ok (up : Bool) : Bool := (legSegments r l up).all (fun x => !s.fab.sick.contains x)
    if ok (legUp r l) then some false else if ok (!legUp r l) then some true else none

/-- Whether a leg in its chosen direction crosses a closed segment. -/
def legClosed (s : State) (l : Leg) (alt : Bool) : Bool :=
  match ringAt s l.ring with
  | none => false
  | some r => (legSegments r l (legUp r l != alt)).any (fun x => s.fab.closedSeg.contains x)

/-- The DIR bits of a list of legs, leg i at bit i. -/
def dirBits : List Bool → Nat
  | [] => 0
  | a :: r => bit a + 2 * dirBits r

/-- The directions chosen for the legs of a route. -/
def chooseDirs (s : State) : List Leg → Option (List Bool)
  | [] => some []
  | l :: r =>
    match legChoice s l with
    | none => none
    | some a => (chooseDirs s r).map (fun as => a :: as)

/-- The position on a ring of a rim die of this module. -/
def myMember (s : State) (r : Ring) (rim : Nat) : Option Nat := r.members.findIdx? (fun m => m.1 == myModule s && m.2 == rim)

/-- The port on which a packet leaves a member of a ring along a leg: the higher-numbered port of its rim die faces the next
member; and whether the segment is the date line (11 R306, R307). -/
def legPort (r : Ring) (up : Bool) (pos : Nat) : Nat × Bool :=
  let ports := rimPorts ((r.members.getD pos (0, 0)).2)
  (if up then ports.2 else ports.1, if up then pos + 1 == r.members.length else pos == 0)

/-! ### Ports -/

/-- A port as Table 11.14 gives it by default. -/
def portDefault : PortRec where
  state := .down
  active := 0
  failed := 0
  peer := 0
  delay := 0
  symbols := 0
  badCw := 0
  retries := 0
  corrected := 0
  xoffTime := 0
  discarded := 0
  marks := 0
  beacons := 0
  frames := 0
  rxSeq := 0
  retrying := false
  discard := false
  resends := 0
  txSeq := 0
  buffer := []
  xoff := 0
  badInRow := []
  rxWords := []
  arrived := []
  ownXoff := 0
  lane := 0
  turn := 0
  circ := 0
  left := 0
  high := 0
  low := 0
/-- The record of a port. -/
def portAt (s : State) (p : Nat) : PortRec := tget portDefault s.fab.ports p
/-- The state with one port changed. -/
def modPort (s : State) (p : Nat) (f : PortRec → PortRec) : State :=
  { s with fab := { s.fab with ports := tset s.fab.ports p (f (portAt s p)) } }
/-- Whether a port is up in fabric mode. -/
def portUp (r : PortRec) : Bool := r.state == .up
/-- A message to the fabric. -/
def emitFab (s : State) (o : FabOut) : State := { s with out := { s.out with fab := s.out.fab ++ [o] } }

/-! ### Codewords sent (11 R295, R296) -/

/-- The idle word. -/
def idleWord : DWord := 0xFFFFFFFFFFFFFFFF#64
/-- The words of a packet: its header, whose check bytes are made here, and its payload (11 R295, R302). -/
def packetWords (p : FabPacket) : List DWord :=
  p.header.extractLsb' 0 64 :: p.header.extractLsb' 64 64 :: linePairs p.payload
/-- Bytes that a packet holds in a queue or a buffer: header and payload. -/
def packetBytes (p : FabPacket) : Nat := 16 + p.payload.length
/-- The retry buffer in codewords (11 Table 11.3). -/
def retryDepth : Nat := 512

/-- The active lanes of a port, rising. -/
def laneList (r : PortRec) : List Nat := (List.range 8).filter (fun l => r.active.getLsbD l)
/-- The lane that takes the next codeword: the next active one, round robin (11 R296). -/
def nextLane (r : PortRec) : Nat :=
  ((laneList r).find? (fun l => r.lane < l)).getD ((laneList r).headD 0)

/-- A control field (11 Table 11.2): ACK is the last sequence number received in order, XOFF what this end holds off. -/
def controlField (r : PortRec) (seq : BitVec 12) (nak : Bool) (first kind : Nat) : BitVec 100 :=
  BitVec.ofNat 100 (seq.toNat + 2 ^ 12 * r.rxSeq.toNat + 2 ^ 24 + 2 ^ 25 * bit nak + 2 ^ 26 * r.ownXoff.toNat +
    2 ^ 46 * (first % 128) + 2 ^ 53 * kind)
/-- Words filled up to a codeword with idle words, each with its check byte. -/
def fillWords (ws : List DWord) : List (BitVec 72) := (ws ++ List.replicate (70 - ws.length) idleWord).map codeword

/-- A data codeword sent on the next active lane. -/
def sendCodeword (s : State) (p : Nat) (c : TxCodeword) : State :=
  let r := portAt s p
  let l := nextLane r
  emitFab (modPort s p (fun r => { r with lane := l })) (.codeword p l (controlField r c.seq false c.first 0) c.words)
/-- An idle codeword, which bears ACK, NAK and XOFF (11 R296). -/
def sendIdle (s : State) (p : Nat) (nak : Bool) : State :=
  let r := portAt s p
  let l := nextLane r
  emitFab (modPort s p (fun r => { r with lane := l })) (.codeword p l (controlField r 0 nak 0x7F 1) (fillWords []))
/-- A beacon on the lowest active lane (11 R320). -/
def sendBeacon (s : State) (p : Nat) (seq : DWord) (offset hops : Nat) : State :=
  let r := portAt s p
  emitFab s (.codeword p ((laneList r).headD 0) (controlField r 0 false 0x7F 2)
    (fillWords [seq, BitVec.ofNat 64 (offset % 2 ^ 16 + 2 ^ 16 * (hops % 16))]))

/-- Where a packet lies in a stream of words: its first word, its length, and whether it is a packet of a frame (11 R304). -/
structure Span where
  start : Nat
  words : Nat
  job   : Bool
deriving DecidableEq, Repr

/-- The FIRST field of the codeword of a stream that begins at a word: where its first header begins (11 Table 11.2). -/
def firstHeader (l : List Span) (at_ : Nat) : Nat :=
  match l.find? (fun x => at_ ≤ x.start && x.start < at_ + 70) with
  | some x => x.start - at_
  | none => 0x7F

/-- A stream of words with the packets in it, cut into data codewords: each enters the retry buffer and is sent. -/
def sendStream (s : State) (p : Nat) (ws : List DWord) (l : List Span) : State :=
  (chunksOf 70 ws).zipIdx.foldl (fun a c =>
    let n := 70 * c.2
    let cw : TxCodeword := { seq := (portAt a p).txSeq + 1, first := firstHeader l n, words := fillWords c.1
                             job := l.any (fun x => x.job && x.start < n + 70 && n < x.start + x.words) }
    sendCodeword (modPort a p (fun r => { r with txSeq := cw.seq, buffer := r.buffer ++ [cw] })) p cw) s

/-! ### Queues and arbitration (11 R308, R310 to R313) -/

/-- The channel of a packet (11 R308). -/
def channelOf (p : FabPacket) : Nat :=
  4 * typeClass (hType p.header) + 2 * (if hSmod p.header < hDmod p.header then 0 else 1) + bit (hDl p.header)

/-- The way of a packet that enters the fabric here: its port, its header, and whether a closed segment holds it. None:
the destination is unreachable, or the circuit does not start here. -/
def routeSource (s : State) (p : FabPacket) (c : Circuit) : Option (Nat × FabPacket × Bool) :=
  let legs := legsTravelled c (hSmod p.header < hDmod p.header)
  match chooseDirs s legs with
  | none => none
  | some ds =>
    match legs with
    | [] => none
    | l :: _ =>
      (ringAt s l.ring).map (fun r =>
        let x := legPort r (legUp r l != ds.headD false) l.inn
        (x.1, { p with header := reHeader p.header (hCe p.header) x.2 (dirBits ds) 0 },
          (legs.zip ds).any (fun y => legClosed s y.1 y.2)))

/-- The way of a packet that came to a rim die of this module and goes on: along its leg, or onto the next leg from the
leg's exit, with DL reset at a leg change and set on the date line (11 R307). -/
def routeTransit (s : State) (rim : Nat) (p : FabPacket) (c : Circuit) : Option (Nat × FabPacket) :=
  let h := p.header
  let legs := legsTravelled c (hSmod h < hDmod h)
  match legs[hLeg h]? with
  | none => none
  | some l =>
    match (ringAt s l.ring).bind (fun r => myMember s r rim) with
    | none => none
    | some pos =>
      let leg := if pos = l.out then hLeg h + 1 else hLeg h
      match legs[leg]? with
      | none => none
      | some m =>
        (ringAt s m.ring).map (fun r =>
          let x := legPort r (legUp r m != bitAt (hDir h) leg) (if leg = hLeg h then pos else m.inn)
          (x.1, { p with header := reHeader h (hCe h) (x.2 || (leg == hLeg h && hDl h)) (hDir h) leg }))

/-- Whether a port can start a packet now: up or draining, of a module with an ID, its channel on, and room in the retry
buffer behind the words that go before it (11 R297, R298, R300, R312). -/
def portReady (s : State) (r : PortRec) (before : Nat) (p : FabPacket) : Bool :=
  (portUp r || r.state == .closed) && s.fab.moduleId != 0#16 && !r.xoff.getLsbD (channelOf p) &&
  r.buffer.length + ceilDiv (before + (packetWords p).length) 70 ≤ retryDepth

/-- What waits at a port: the packets whose route is fixed, in order. -/
def portQueue (s : State) (p : Nat) : List Egress := s.fab.egress.filter (fun x => x.port == some p)
/-- Whether a queued packet is a bulk request. -/
def Egress.bulk (x : Egress) : Bool := typeClass (hType x.pkt.header) == 0

/-- The packets that may start next at a port: of each channel of classes 1 to 4, and of each circuit in bulk requests, the
first, since each virtual channel delivers in order. -/
def startable (s : State) (p before : Nat) : List Egress :=
  let q := portQueue s p
  let r := portAt s p
  let first (x : Egress) : Bool :=
    if x.bulk then q.find? (fun y => y.bulk && y.sp.circ == x.sp.circ) == some x
    else q.find? (fun y => !y.bulk && channelOf y.pkt == channelOf x.pkt) == some x
  q.filter (fun x => first x && portReady s r before x.pkt)

/-- The element of a list with the least key above a number, else with the least key: round robin. -/
def roundRobin (l : List Egress) (key : Egress → Nat) (last : Nat) : Option Egress :=
  let least (m : List Egress) : Option Egress := m.find? (fun x => m.all (fun y => key x ≤ key y))
  match least (l.filter (fun x => last < key x)) with
  | some x => some x
  | none => least l

/-- The weight of a circuit of the job. -/
def weightOf (s : State) (c : Nat) : Nat := ((circuitAt s c).map (fun x => x.weight)).getD 1

/-- The bulk request that a port would start next: of the circuit served last while its weight lasts, then of the next. -/
def nextBulk (r : PortRec) (bulk : List Egress) : Option Egress :=
  (if 0 < r.left then bulk.find? (fun y => y.sp.circ == r.circ) else none).or (roundRobin bulk (fun y => y.sp.circ) r.circ)

/-- The packet that a port starts next (11 R311): classes 1 to 4 first, round robin among their channels, while bulk requests
wait only as long as they have at most a third of the codewords that bulk requests have; then bulk requests by weighted
round robin among circuits, a circuit of weight w starting w packets in its turn (log entry 71). -/
def nextStart (s : State) (p before : Nat) : Option Egress :=
  let r := portAt s p
  let ready := startable s p before
  let bulk := ready.filter Egress.bulk
  let other := roundRobin (ready.filter (fun x => !x.bulk)) (fun x => channelOf x.pkt) r.turn
  let waiting := (portQueue s p).any Egress.bulk
  match other with
  | some x => if !waiting || bulk.isEmpty || 3 * r.high ≤ r.low then some x else nextBulk r bulk
  | none => nextBulk r bulk

/-- The standing of a port's arbiter after a packet started. -/
def countStart (s : State) (x : Egress) (waiting : Bool) (r : PortRec) : PortRec :=
  let n := ceilDiv (packetWords x.pkt).length 70
  let r := if waiting then { r with high := if x.bulk then r.high else r.high + n, low := if x.bulk then r.low + n else r.low }
    else { r with high := 0, low := 0 }
  if x.bulk then
    (if r.circ = x.sp.circ && 0 < r.left then { r with left := r.left - 1 }
     else { r with circ := x.sp.circ, left := weightOf s x.sp.circ - 1 })
  else { r with turn := channelOf x.pkt }

/-- A packet taken from its queue as it starts: a bulk request takes CE where more than the mark threshold is queued for its
channel, or where the receiver holds the channel off (11 R313). -/
def startPacket (s : State) (port : Nat) (x : Egress) : State × FabPacket :=
  let q := portQueue s port
  let queued := (q.filter (fun y => channelOf y.pkt == channelOf x.pkt)).foldl (fun n y => n + packetBytes y.pkt) 0
  let mark := x.bulk && (s.fab.markThr.toNat * 1024 < queued || (portAt s port).xoff.getLsbD (channelOf x.pkt))
  let p := if mark then
      { x.pkt with header := reHeader x.pkt.header true (hDl x.pkt.header) (hDir x.pkt.header) (hLeg x.pkt.header) } else x.pkt
  let s := { s with fab := { s.fab with egress := s.fab.egress.erase x } }
  let s := modPort s port (fun r => countStart s x (q.any Egress.bulk) { r with marks := if mark then r.marks + 1 else r.marks })
  (emitFab s (.packet port p), p)

/-- The packets that a port starts now, in the order of its arbiter, as one stream of words; the fuel is the length of its
queue. -/
def startAll (p : Nat) : Nat → State → List DWord → List Span → State
  | 0, s, ws, l => sendStream s p ws l
  | n + 1, s, ws, l =>
    match nextStart s p ws.length with
    | none => sendStream s p ws l
    | some x =>
      let y := startPacket s p x
      let w := packetWords y.2
      startAll p n y.1 (ws ++ w) (l ++ [{ start := ws.length, words := w.length, job := x.sp.cls < 3 }])

/-- A port starts what it can. -/
def servePort (s : State) (p : Nat) : State :=
  if (portQueue s p).isEmpty then s else startAll p (portQueue s p).length s [] []

/-- A held packet takes its route once no closed segment holds it, behind none of its circuit and class that is held (11
R310). Without a route the fault stands in its place. -/
def routeHeld (s : State) (x : Egress) : State :=
  match x.port with
  | some _ => { s with fab := { s.fab with egress := s.fab.egress ++ [x] } }
  | none =>
    match circuitAt s x.sp.circ with
    | none => s
    | some c =>
      match routeSource s x.pkt c with
      | none => raise s .module 0x0B noEngine 0 0 none
      | some y =>
        let behind := s.fab.egress.any (fun z => z.port.isNone && z.sp.circ == x.sp.circ && z.sp.cls == x.sp.cls)
        let z : Egress := if y.2.2 || behind then x else { sp := x.sp, pkt := y.2.1, port := some y.1 }
        { s with fab := { s.fab with egress := s.fab.egress ++ [z] } }

/-- Everything that can leave leaves: held packets take their routes, and every port starts what it can. -/
def flushEgress (s : State) : State :=
  if s.fab.egress.isEmpty then s
  else
    let s := s.fab.egress.foldl routeHeld { s with fab := { s.fab with egress := [] } }
    (List.range 32).foldl servePort s

/-- A packet put into a queue, to leave as soon as it can. -/
def enqueue (s : State) (x : Egress) : State := flushEgress { s with fab := { s.fab with egress := s.fab.egress ++ [x] } }

/-! ### The order of a writer's packets (11 R316) -/

/-- Whether two packets have one writer, destination and class. -/
def sameWriter (a b : SentPacket) : Bool := a.k == b.k && a.e == b.e && a.dmod == b.dmod && a.cls == b.cls

/-- Whether an ORD packet must still wait. -/
def ordBlocked (s : State) (sp : SentPacket) (ord : Bool) : Bool :=
  (ord && s.fab.sent.any (fun x => sameWriter x sp && x.seq < sp.seq)) ||
  s.fab.ordWait.any (fun x => sameWriter x.1 sp && x.1.seq < sp.seq)

/-- The management route for a packet of class 3 or 4 (11 R324): the port, and whether it sets DL. -/
def mgmtRoute (s : State) (dmod : Nat) : Option (Nat × Bool) :=
  let up (p : Nat) : Bool := portUp (portAt s p)
  match s.fab.routes.find? (fun r => r.dmod == dmod) with
  | none => none
  | some r => if up r.port then some (r.port, r.dlset) else if r.altv && up r.alt then some (r.alt, r.dlset) else none
/-- A management packet with DL set where its route sets it. -/
def putDl (p : FabPacket) (dl : Bool) : FabPacket :=
  { p with header := if dl then p.header ||| 64 else p.header }
/-- A management packet that this module originates, queued on its route. -/
def queueMgmt (s : State) (sp : SentPacket) (p : FabPacket) : State :=
  match mgmtRoute s (hDmod p.header) with
  | some x => enqueue s { sp := sp, pkt := putDl p x.2, port := some x.1 }
  | none => { s with fab := { s.fab with unrouted := s.fab.unrouted + 1 } }

/-- A packet that may leave its source rim die, by its class. -/
def leaveRim (s : State) (sp : SentPacket) (p : FabPacket) : State :=
  if 3 ≤ sp.cls then queueMgmt s sp p else enqueue s { sp := sp, pkt := p, port := none }

/-- A packet at its source rim die: an ORD packet waits for its writer's earlier packets, and those of its class that come
behind it wait with it. -/
def enterRim (s : State) (sp : SentPacket) (p : FabPacket) : State :=
  if ordBlocked s sp (hOrd p.header) then { s with fab := { s.fab with ordWait := s.fab.ordWait ++ [(sp, p)] } }
  else leaveRim s sp p

/-- The rim die at which a circuit leaves this module, as a unit: the entry of its first leg (11 R307). -/
def circuitRim (s : State) (c : Nat) : Option Nat :=
  match circuitAt s c with
  | none => none
  | some x =>
    match legsTravelled x (x.modA == myModule s) with
    | [] => none
    | l :: _ => (ringAt s l.ring).map (fun r => 72 + (r.members.getD l.inn (0, 0)).2)

/-- A fabric packet sent across the panel between a unit and a rim die, as bulk packets of up to 4 lines, or a sync packet of
one flit (10 R269, R270; 11 R307). -/
def crossPanel (s : State) (src dst : Nat) (sp : SentPacket) (g : Option Signal) (p : FabPacket) : State :=
  match g with
  | some g =>
    let waiting := s.noc.sync.any (fun x => x.way.held && x.way.at_ == src && x.way.dest == dst)
    inject s src dst 0 waiting (fun s w => { s with noc := { s.noc with sync := s.noc.sync ++
      [{ sig := g, leaves := some (sp, p), came := none, way := w }] } })
  | none =>
    let lines := p.payload.length / 64
    (List.range (max 1 (ceilDiv lines 4))).foldl (fun a i => sendBulk a src dst 0 (fun w =>
      { kind := .fabric sp p, k := sp.k, e := sp.e, task := 0, ord := 0, addr := 64 * (sp.addr + 4 * i)
        lines := min 4 (lines - 4 * i), data := [], relay := none, way := w })) s

/-- A packet of a writer at a unit sent on a circuit, by way of the rim die where the circuit leaves. Without the circuit it is
discarded, and its writer receives no acknowledgement (11 R305). -/
def sendFab (s : State) (src : Nat) (sp : SentPacket) (g : Option Signal) (p : FabPacket) : State :=
  let sp := { sp with seq := s.noc.nextId, circ := hCirc p.header, dmod := hDmod p.header, addr := hAddr p.header
                      lines := hLines p.header }
  let s := { s with noc := { s.noc with nextId := s.noc.nextId + 1 } }
  match circuitRim s (hCirc p.header) with
  | none => s
  | some u =>
    let s := { s with fab := { s.fab with sent := s.fab.sent ++ [sp] } }
    if src = u then enterRim s sp p else crossPanel s src u sp g p

/-- ORD_PACKET_RELEASE (11 R316): packet i leaves its source rim die once nothing before it is outstanding. -/
def releaseOrd (s : State) (i : Nat) : State :=
  match s.fab.ordWait[i]? with
  | none => s
  | some x =>
    let rest := { s with fab := { s.fab with ordWait := dropAt s.fab.ordWait i } }
    if ordBlocked rest x.1 (hOrd x.2.header) then s else leaveRim rest x.1 x.2

/-- A packet that waits for no acknowledgement: an acknowledgement or a packet in transit on a circuit, a management packet
or a vote. -/
def bareSent (s : State) (p : FabPacket) : SentPacket :=
  { seq := s.noc.nextId, circ := hCirc p.header, cls := typeClass (hType p.header), k := 1000 + hSmod p.header, e := 15
    dmod := hDmod p.header, addr := 0, lines := 0, acks := [], merge := false }

/-- The acknowledgement of a packet, on its circuit in class 1 (11 R313, R315, Table 11.7). -/
def ackPacket (s : State) (h : BitVec 128) (scl seng : Nat) (err : Bool) : FabPacket :=
  { header := mkHeader (headerLow 3 false false false (frameTag s) (hCirc h) (myModule s) (hSmod h) 0 0)
      (headerBulk (hAddr h) (hLines h) scl seng (hCe h) err)
    payload := [] }

/-- A packet sent with no writer of its own: an acknowledgement. -/
def sendBare (s : State) (p : FabPacket) : State :=
  enqueue { s with noc := { s.noc with nextId := s.noc.nextId + 1 } } { sp := bareSent s p, pkt := p, port := none }
/-- A management packet with no writer of its own, sent (11 R324). -/
def sendMgmt (s : State) (p : FabPacket) : State :=
  queueMgmt { s with noc := { s.noc with nextId := s.noc.nextId + 1 } } (bareSent s p) p

/-- A domain vote (11 R303): TYPE 0111b, its payload line the frame's sequence number and the outcome. -/
def votePacket (s : State) (dmod : Nat) (seq : DWord) (v : Vote) : FabPacket :=
  { header := mkHeader (headerLow 7 false false false 0 0 (myModule s) dmod 0 0) 0
    payload := leBytes 8 seq.toNat ++ leBytes 8 (match v with
      | .commit => 0
      | .hold => 1
      | .abandon => 2) ++ List.replicate 48 0 }

end Sys2Proof.Machine
end

