-- ==== Sys2Proof/Machine/Network.lean ====
section
/-!
DEFINITION. The remote cache (spec 08 R220 to R224), bulk writes on the panel and on circuits (08 R218, R219, R236;
09 R251, R253), combining trees (10 R279 to R281, 11 R318, R319) and relay transfers (09 R259, R260).
-/
namespace Sys2Proof.Machine
open Sys2Proof

/-! ### The remote cache -/

/-- The set of a logical line (08 R220). -/
def cacheSetOf (line : Nat) : Nat := bitsAt line 0 15 ^^^ bitsAt line 15 15
/-- A set with every way invalid. -/
def cacheSetEmpty : CacheSet := { ways := [], plru := 0 }
/-- A set of a site's cache. -/
def cacheSetAt (s : State) (site i : Nat) : CacheSet := tget cacheSetEmpty (tget [] s.mem.caches site) i
/-- The state with one set changed; a set with nothing in it is not listed. -/
def putCacheSet (s : State) (site i : Nat) (c : CacheSet) : State :=
  let t := tget [] s.mem.caches site
  { s with mem := { s.mem with caches := tset s.mem.caches site (tset t i c) } }
/-- The way that holds a line. -/
def cacheWay (c : CacheSet) (line : Nat) : Option (Nat × CacheLine) := c.ways.find? (fun w => w.2.line == line)

/-- The replacement tree after an access to a way: every node on its path points to the other side. -/
def plruTouch (bits : BitVec 15) (way : Nat) : BitVec 15 :=
  let go (a : BitVec 15 × Nat) (lvl : Nat) : BitVec 15 × Nat :=
    let side := bitAt way (3 - lvl)
    let m : BitVec 15 := BitVec.ofNat 15 (2 ^ a.2)
    ((if side then a.1 &&& ~~~m else a.1 ||| m), 2 * a.2 + 1 + bit side)
  ((List.range 4).foldl go (bits, 0)).1
/-- The way to which the replacement tree points. -/
def plruVictim (bits : BitVec 15) : Nat :=
  let go (a : Nat × Nat) (_ : Nat) : Nat × Nat :=
    let side := bits.getLsbD a.2
    (2 * a.1 + bit side, 2 * a.2 + 1 + bit side)
  ((List.range 4).foldl go (0, 0)).1

/-- The number of the first word of a site's copy of a line, among the words that an upset may hold. -/
def cacheWord (site line : Nat) : Nat := 2 ^ 52 + site * 2 ^ 41 + 8 * line
/-- The upsets of a site's copy of a line gone: the copy was written or dropped. -/
def cacheHeal (s : State) (site line : Nat) : State :=
  { s with mem := { s.mem with upset := s.mem.upset.filter (fun u => u.1 / 8 != cacheWord site line / 8) } }

/-- A line put into a site's cache: over its own copy, else into the lowest-numbered invalid way (log entry 39), else over
the victim. -/
def cacheFill (s : State) (site line : Nat) (data : List Byte) : State :=
  let i := cacheSetOf line
  let c := cacheSetAt s site i
  let way := match cacheWay c line with
    | some w => w.1
    | none => ((List.range 16).find? (fun w => (tfind c.ways w).isNone)).getD (plruVictim c.plru)
  cacheHeal (putCacheSet s site i { ways := tset c.ways way { line := line, data := data }, plru := plruTouch c.plru way }) site line
/-- Whether a site's cache holds a line. -/
def cacheHas (s : State) (site line : Nat) : Bool := (cacheWay (cacheSetAt s site (cacheSetOf line)) line).isSome
/-- A copy invalidated where a site holds one (08 R221). -/
def cacheDrop (s : State) (site line : Nat) : State :=
  let i := cacheSetOf line
  let c := cacheSetAt s site i
  match cacheWay c line with
  | none => s
  | some w => cacheHeal (putCacheSet s site i { c with ways := terase c.ways w.1 }) site line

/-- A cached lookup (08 R217, R240): the copy where it is good, its corrected words counted; a copy with an uncorrectable
word is invalidated, a haze event, to be fetched again. Hits and misses are counted. -/
def cacheLook (s : State) (site line : Nat) : State × Option (List Byte) :=
  let i := cacheSetOf line
  let c := cacheSetAt s site i
  match cacheWay c line with
  | none => (modSite s site (fun r => { r with misses := r.misses + 1 }), none)
  | some w =>
    let us := upsetsIn s.mem 0 (8 * cacheWord site line) 64
    if us.any (fun u => u.2 == .double) then
      (modSite (haze (cacheDrop s site line) 1) site (fun r => { r with misses := r.misses + 1, refetch := r.refetch + 1 }), none)
    else
      let fixed := (us.filter (fun u => u.2 == .single)).length
      let s := putCacheSet s site i { c with plru := plruTouch c.plru w.1 }
      let s := if fixed = 0 then s else haze (cacheHeal s site line) fixed
      (modSite s site (fun r => { r with hits := r.hits + 1, cacheFix := r.cacheFix + BitVec.ofNat 32 fixed }), some w.2.data)

/-! ### Outstanding writes (09 R251, R253) -/

/-- The destination of a write as the tracker keeps it: a cluster of this module, 512 + n for a stack, and a cluster
of another module above 2000. -/
def destOf (mod addr : Nat) : Nat :=
  match placeOf addr with
  | .pad k _ => if mod = 0 then k else 2000 + mod * 512 + k
  | .stack n _ => if mod = 0 then 512 + n else 1000
  | _ => 1000
/-- The destination clusters of a list of outstanding writes. -/
def destClusters (l : List (Nat × Nat)) : List Nat :=
  (l.map Prod.snd).foldl (fun a d => if d < 512 || 2000 ≤ d then setInsert d a else a) []

/-- A write issued by an engine: its ordinal is outstanding; a 17th destination cluster sets the overflow. -/
def addWrite (s : State) (k e dest : Nat) : Nat × State :=
  let n := (engineAt s k e).issued + 1
  (n, modEngine s k e (fun r =>
    let l := r.unacked ++ [(n, dest)]
    { r with issued := n, unacked := l, overflow := r.overflow || 16 < (destClusters l).length }))
/-- A write acknowledged. -/
def ackWrite (s : State) (k e ord : Nat) : State :=
  modEngine s k e (fun r =>
    let l := r.unacked.filter (fun w => w.1 != ord)
    { r with unacked := l, overflow := r.overflow && !l.isEmpty })

/-- The instruction that the engine started last has issued every write so far. -/
def markIssued (s : State) (k e : Nat) : State :=
  modEngine s k e (fun r => { r with
    flight := r.flight.zipIdx.map (fun f => if f.2 + 1 = r.flight.length then { f.1 with upTo := r.issued } else f.1) })
/-- Reads of the instruction that the engine started last. -/
def addReads (s : State) (k e : Nat) (d : Int) : State :=
  modEngine s k e (fun r => { r with
    flight := r.flight.zipIdx.map (fun f =>
      if f.2 + 1 = r.flight.length then { f.1 with reads := (f.1.reads + d).toNat } else f.1) })

/-! ### Trees -/

/-- Whether an address lies in a tree's destination range. -/
def inTree (t : Tree) (a : Nat) : Bool :=
  let lo := padAddr t.dcl t.first
  lo ≤ a && a < lo + 64 * t.lines
/-- The panel tree whose range holds an address. -/
def panelTree (s : State) (a : Nat) : Option Tree :=
  match s.job.plan with
  | some p => p.trees.find? (fun t => inTree t a)
  | none => none
/-- The fabric tree to which a cluster of this module contributes on a circuit at an address. -/
def fabricTree (s : State) (k circ a : Nat) : Option Tree :=
  match s.job.plan with
  | some p => p.fabTrees.find? (fun t => inTree t a && t.contrib.contains (k, myModule s, circ))
  | none => none
/-- The code of a contributor in node lists. -/
def contribCode (t : Tree) (k mod : Nat) : Nat := 0x40 + t.contrib.findIdx (fun c => c.1 == k && c.2.1 == mod)
/-- The node above a child, and whether the child is on its left. -/
def parentOf (t : Tree) (child : Nat) : Option (Nat × TreeNode × Bool) :=
  (t.nodes.zipIdx.find? (fun n => n.1.left == child || n.1.right == child)).map (fun n => (n.2, n.1, n.1.left == child))
/-- A tree by its code: the panel trees by their number, the fabric trees by their number plus 16. -/
def treeByCode (s : State) (code : Nat) : Option Tree :=
  match s.job.plan with
  | some p => if code < 16 then p.trees.find? (fun t => t.number == code)
              else p.fabTrees.find? (fun t => t.number + 16 == code)
  | none => none
/-- The unit that hosts a node. -/
def nodeUnit (s : State) (fabric : Bool) (n : TreeNode) : Nat :=
  if fabric then 72 + n.rim else (chipletSite s n.host).getD 0

/-- The code of the service cores of a rim die among writers. -/
def serviceCode (n : Nat) : Nat := 600 + n
/-- The rim die whose service cores a writer code names. -/
def serviceRim (k : Nat) : Option Nat := if 600 ≤ k && k < 616 then some (k - 600) else none

/-- The unit at which a writer stands: a cluster's site, the rim die of service cores, or the rim die that took in fabric packet
k - 1024. An acknowledgement names a cluster as `(cluster, engine + 16 task, ordinal)`, and the others as `(k, 0, 0)`. -/
def writerUnit (s : State) (k : Nat) : Nat :=
  match serviceRim k with
  | some n => 72 + n
  | none =>
    if k < 1024 then clusterHome s k
    else match s.fab.inbound.find? (fun x => x.id + 1024 == k) with
      | some x => 72 + portRim x.port
      | none => 72

/-- Lines acknowledged to their writers, from a unit (09 R251, 11 R315, R319). An acknowledgement that goes down a tree passes
its nodes with no effect on them. -/
def ackAll (s : State) (src : Nat) (err : Bool) (addr : Nat) (acks : List (Nat × Nat × Nat)) : State :=
  acks.foldl (fun a w => sendBulk a src (writerUnit a w.1) (if w.1 < 512 then w.1 % 8 else 0) (fun way =>
    { kind := .ack err false, k := w.1, e := w.2.1 % 16, task := w.2.1 / 16, ord := w.2.2, addr := addr, lines := 1
      data := [], relay := none, way := way })) s

/-- Flags of a merge, set in the clusters of this module that issued the MADDs. -/
def mergeFlags (s : State) (f : Flags) (acks : List (Nat × Nat × Nat)) : State :=
  if f = flagNone then s
  else acks.foldl (fun a w => if w.1 < 512 then setFlags a w.1 (w.2.1 / 16) f else a) s

/-- The cluster whose scratchpad holds an address. -/
def padCluster (a : Nat) : Nat :=
  match placeOf a with
  | .pad k _ => k
  | _ => 0

/-! ### Words that a home reads (08 R237, R240, R241) -/

/-- A data error in a stack line (15 faults 06h to 08h; 08 R237, R241): carry with no good copy ends the job; a word
that is not carry abandons, and its repeat in the replay is a channel failure. -/
def stackError (s : State) (n key : Nat) (carry : Bool) : State :=
  let line := key * 8 % stackWindow / 64
  let s := modStack s n (fun r => { r with errors := r.errors + 1 })
  if carry then raise s (unitId (72 + n)) 8 noEngine 0 0 none
  else if jobRunning s && rideThrough s && s.tick.recovery.repeatAt.contains key then
    let s := noteRetired s 12 (72 + n) (line % 64 ^^^ line / 64 % 64)
    raise s (unitId (72 + n)) 7 noEngine 0 0 none
  else
    let s := raise s (unitId (72 + n)) 6 noEngine 0 (line % 2 ^ 32) none
    { s with tick := { s.tick with recovery := { s.tick.recovery with
        repeatAt := if s.tick.recovery.active then setInsert key s.tick.recovery.repeatAt else [] } } }

/-- The words of a stack line as the rim die checks them: corrected words are counted and rewritten; a carry line with an
uncorrectable word is restored from the partner's committed copy, a haze event; any other is a data error. -/
def checkStack (s : State) (n a : Nat) : State × Bool :=
  let us := upsetsIn s.mem 0 a 64
  let s := fixStack s n a 64
  match us.find? (fun u => u.2 == .double) with
  | none => (s, true)
  | some u =>
    if rideThrough s && (regionOf s a).isSome then
      match if s.job.copiesDone then goodCopy s [1] (a / 64) else none with
      | none => (stackError s n u.1 true, false)
      | some c =>
        let s := haze (restoreLine s (a / 64) (copyLine s c (a / 64))) 1
        (modStack s n (fun r => { r with errors := r.errors + 1 }), true)
    else (stackError s n u.1 false, false)

/-- A line checked at its home: whether it may be read. A bad word of a scratchpad is raised against no engine. -/
def checkHome (s : State) (a : Nat) : State × Bool :=
  match placeOf a with
  | .stack n _ => checkStack s n a
  | .pad k _ =>
    let c := checkPad s k a 64
    (match c.2 with
     | some key => (dataErrorPad c.1 k noEngine key (key * 8 % padWindow / 64), false)
     | none => (c.1, true))
  | _ => (s, true)
/-- Consecutive lines checked; the first bad one stops. -/
def checkLines (s : State) (a : Nat) : Nat → State × Bool
  | 0 => (s, true)
  | n + 1 =>
    let c := checkHome s a
    if c.2 then checkLines c.1 (a + 64) n else c

/-- A line merged into memory at its home, with flags to the writers: the old line is checked first. -/
def mergeInto (s : State) (a : Nat) (data : List Byte) (acks : List (Nat × Nat × Nat)) : State × Bool :=
  let c := checkHome s a
  if !c.2 then c
  else
    let r := mergeAt c.1 a data
    let s := match placeOf a with
      | .pad k _ => padWrite c.1 k a r.1
      | _ => writeBytes c.1 a r.1
    (mergeFlags s r.2 acks, true)
/-- Consecutive lines merged at their home. -/
def mergeAll (acks : List (Nat × Nat × Nat)) : State → Nat → List (List Byte) → State × Bool
  | s, _, [] => (s, true)
  | s, a, d :: r =>
    let c := mergeInto s a d acks
    if c.2 then mergeAll acks c.1 (a + 64) r else c

/-- The unit of the node above a contribution. -/
def parentUnit (s : State) (code child : Nat) : Nat :=
  match treeByCode s code with
  | none => 0
  | some t =>
    match parentOf t child with
    | none => 0
    | some p => nodeUnit s (16 ≤ code) p.2.1

/-- A node that a list does not name. -/
def noNode : TreeNode := { host := 0, rim := 0, left := 0, right := 0, circ := 0 }

/-- A packet of a writer, before its place in the order is known. -/
def sentOf (k e cls : Nat) (acks : List (Nat × Nat × Nat)) (merge : Bool) : SentPacket :=
  { seq := 0, circ := 0, cls := cls, k := k, e := e, dmod := 0, addr := 0, lines := 0, acks := acks, merge := merge }

/-- What leaves a node: to its parent on this module or across its circuit, or, from the root, towards the destination. A
packet on a circuit bears cluster 0 and engine code 15, since no engine writes it. -/
def nodeSend (s : State) (code n : Nat) (t : Tree) (addr : Nat) (data : List Byte) (acks : List (Nat × Nat × Nat)) :
    State :=
  let node := t.nodes.getD n noNode
  let here := nodeUnit s (16 ≤ code) node
  let packet (kind : BulkKind) (way : Transit) : BulkPacket :=
    { kind := kind, k := 512 + n, e := 15, task := 0, ord := 0, addr := addr, lines := 1, data := data, relay := none, way := way }
  if n = 0 then sendBulk s here (homeUnit s here addr) (homeLocal addr) (packet (.rootMerge acks))
  else if 16 ≤ code && node.circ != 0 then
    let root := t.nodes.getD 0 node
    sendFab s here (sentOf 0 15 0 acks false) none {
      header := mkHeader (headerLow 2 false false false (frameTag s) node.circ (myModule s) root.host 0 0)
        (headerBulk (addr / 64) 0 0 15 false false)
      payload := data }
  else sendBulk s here (parentUnit s code n) 0 (packet (.tree code n acks))

/-- The lines held at the nodes of one unit. -/
def heldAt (s : State) (fabric : Bool) (u : Nat) : Nat :=
  (s.noc.nodes.filter (fun x => x.fabric == fabric &&
    (match treeByCode s x.tree with
     | some t => nodeUnit s fabric (t.nodes.getD x.node noNode) == u
     | none => false))).length

/-- A node on a unit has room for a child's line: the line buffers of its router or rim die, and no more than 256 lines
ahead of the sibling (10 R281, 11 R319). -/
def nodeRoom (s : State) (fabric : Bool) (tree node child u : Nat) : Bool :=
  (s.noc.nodes.filter (fun x => x.fabric == fabric && x.tree == tree && x.node == node && x.child == child)).length < 256 &&
  heldAt s fabric u < (if fabric then 1024 else 2048)

/-- A child's line delivered to its node (10 R280): held until the sibling's line is there, then merged and sent on. -/
def nodeReceive (s : State) (code child : Nat) (addr : Nat) (data : List Byte) (acks : List (Nat × Nat × Nat)) :
    Option State :=
  match treeByCode s code with
  | none => none
  | some t =>
    match parentOf t child with
    | none => none
    | some p =>
      let fabric : Bool := 16 ≤ code
      let same (x : NodeLine) : Bool :=
        x.fabric == fabric && x.tree == code && x.node == p.1 && x.line == addr && x.child != child
      match s.noc.nodes.find? same with
      | none =>
        if nodeRoom s fabric code p.1 child (nodeUnit s fabric p.2.1) then
          some { s with noc := { s.noc with nodes := s.noc.nodes ++
            [{ fabric := fabric, tree := code, node := p.1, line := addr, child := child, data := data, acks := acks }] } }
        else none
      | some x =>
        let s := { s with noc := { s.noc with nodes := s.noc.nodes.filter (fun y => !same y) } }
        let l := linePairs (if p.2.2 then data else x.data)
        let r := linePairs (if p.2.2 then x.data else data)
        let m := mergeLines l r
        let acks := x.acks ++ acks
        let s := mergeFlags s m.2 acks
        let u := nodeUnit s fabric p.2.1
        let s := if u < 72 then modSite s u (fun x => { x with combined := x.combined + 1 }) else s
        some (nodeSend s code p.1 t addr (pairBytes m.1) acks)

/-! ### Lines that leave a mover -/

/-- What a mover instruction does with its lines. -/
structure Haul where
  k       : Nat
  e       : Nat
  task    : Nat
  pc      : Nat
  circ    : Nat
  merge   : Bool
  barrier : Bool
  mode    : Nat
  relay   : Option Nat
deriving DecidableEq, Repr

/-- Consecutive lines sent as one packet on the circuit of a haul (11 R302, R303, R316). -/
def sendLines (s : State) (h : Haul) (addr : Nat) (datas : List (List Byte)) : State :=
  let tree := if h.merge && h.relay.isNone then fabricTree s h.k h.circ addr else none
  let dmod := match tree with
    | some t => (t.nodes.getD 0 noNode).host
    | none => (circuitPeer s h.circ).getD 0
  let w := addWrite s h.k h.e (destOf (max 1 dmod) addr)
  let type := if tree.isSome then 2 else if h.merge then 1 else 0
  sendFab w.2 (clusterHome w.2 h.k) (sentOf h.k h.e 0 [(h.k, h.e + 16 * h.task, w.1)] h.merge) none {
    header := mkHeader (headerLow type h.barrier false false (frameTag s) h.circ (myModule s) dmod 0 0)
      (headerBulk (addr / 64) (datas.length - 1) h.k h.e h.relay.isSome false)
    payload := datas.flatten }

/-- The tree to which a line of a haul on this module contributes, with its code. -/
def contribTree (s : State) (h : Haul) (addr : Nat) : Option (Nat × Tree) :=
  if h.merge && h.relay.isNone then
    (match panelTree s addr with
     | some t => some (t.number, t)
     | none => (fabricTree s h.k 0 addr).map (fun t => (16 + t.number, t)))
  else none

/-- A contribution set out for its tree's node (10 R280). -/
def sendContribution (s : State) (h : Haul) (c : Nat × Tree) (addr : Nat) (data : List Byte) : State :=
  let here := clusterHome s h.k
  let child := contribCode c.2 h.k (if c.1 < 16 then 0 else myModule s)
  let w := addWrite (cacheDrop s here (addr / 64)) h.k h.e (destOf 0 addr)
  sendBulk w.2 here (parentUnit s c.1 child) 0 (fun way =>
    { kind := .tree c.1 child [(h.k, h.e + 16 * h.task, w.1)], k := h.k, e := h.e, task := h.task, ord := w.1, addr := addr
      lines := 1, data := data, relay := none, way := way })

/-- Consecutive lines of one home sent on the panel as one packet; copies in the chiplet's cache are invalidated (08 R221;
10 R269). -/
def sendPanel (s : State) (h : Haul) (addr : Nat) (datas : List (List Byte)) : State :=
  let here := clusterHome s h.k
  let s := (List.range datas.length).foldl (fun a i => cacheDrop a here (addr / 64 + i)) s
  let w := addWrite s h.k h.e (destOf 0 addr)
  sendBulk w.2 here (homeUnit s here addr) (homeLocal addr) (fun way =>
    { kind := if h.merge then .merge else .write, k := h.k, e := h.e, task := h.task, ord := w.1, addr := addr
      lines := datas.length, data := datas.flatten, relay := h.relay, way := way })

/-- A line written counts for the mover that runs MCOPY or MADD (08 Table 8.11). -/
def countLine (s : State) (h : Haul) : State :=
  if h.relay.isSome then s else modEngine s h.k h.e (fun r => { r with work := r.work + 1 })

/-- Whether a destination line on this module is legal for a haul (08 R216, R218; 10 R280). -/
def destOk (s : State) (h : Haul) (addr : Nat) : Bool :=
  if h.merge && h.relay.isNone && (fabricTree s h.k 0 addr).isSome then true
  else
    addrOk s addr && !inStream s addr 64 &&
    (!h.merge || (regionOf s addr).isNone) &&
    (!h.merge ||
      (match panelTree s addr with
       | some t => h.relay.isNone && t.contrib.any (fun c => c.1 == h.k)
       | none => true))

/-- A walk over the lines of a mover instruction: whether a line stopped it; the lines gathered for one packet, with the
address of the first; and the reads gathered for one request, with the first source and destination. -/
structure Walk where
  s    : State
  stop : Bool
  base : Nat
  buf  : List (List Byte)
  src  : Nat
  dst  : Nat
  n    : Nat

/-- A walk that begins. -/
def Walk.begin_ (s : State) : Walk := { s := s, stop := false, base := 0, buf := [], src := 0, dst := 0, n := 0 }

/-- Whether two lines lie in one window, so that they share their home. -/
def sameWindow (a b : Nat) : Bool :=
  match placeOf a, placeOf b with
  | .pad k _, .pad j _ => k == j
  | .stack k _, .stack j _ => k == j
  | _, _ => false

/-- The gathered lines sent. -/
def Walk.flush (w : Walk) (h : Haul) : Walk :=
  if w.buf.isEmpty then w
  else { w with s := (if h.circ = 0 then sendPanel else sendLines) w.s h w.base w.buf, buf := [] }

/-- The gathered reads requested in one packet. -/
def Walk.ask (w : Walk) (h : Haul) : Walk :=
  if w.n = 0 then w
  else
    let here := clusterHome w.s h.k
    { w with
      s := addReads (sendBulk w.s here (homeUnit w.s here w.src) (homeLocal w.src) (fun way =>
        { kind := .readReq (BitVec.ofNat 2 h.mode) w.dst h.circ h.merge, k := h.k, e := h.e, task := h.task, ord := 0
          addr := w.src, lines := w.n, data := [], relay := none, way := way })) h.k h.e 1
      n := 0 }

/-- One line with its data: into the mover's own scratchpad, to its tree, or gathered for a packet of consecutive lines of
one window: at most 4 on the panel, 128 on a circuit. A data error at the destination stops the walk. -/
def Walk.deliver (w : Walk) (h : Haul) (addr : Nat) (data : List Byte) : Walk :=
  let w := { w with s := countLine w.s h }
  let gather (most : Nat) : Walk :=
    if !w.buf.isEmpty && w.base + 64 * w.buf.length = addr && w.buf.length < most && sameWindow w.base addr then
      { w with buf := w.buf ++ [data] }
    else
      let w := w.flush h
      { w with base := addr, buf := [data] }
  if h.circ != 0 then gather 128
  else match contribTree w.s h addr with
    | some c => { w with s := sendContribution w.s h c addr data }
    | none =>
      if padCluster addr = h.k && padBase ≤ addr then
        (if h.merge then
          let r := mergeInto w.s addr data [(h.k, h.e + 16 * h.task, 0)]
          { w with s := r.1, stop := !r.2 }
        else { w with s := padWrite w.s h.k addr data })
      else gather 4

/-- Whether a source line lies in a scratchpad of the mover's own chiplet. -/
def nearLine (k addr : Nat) : Bool :=
  match placeOf addr with
  | .pad j _ => j / 8 == k / 8
  | _ => false

/-- Whether a fetch of a line for a site's cache is on its way. -/
def fetching (s : State) (site line : Nat) : Bool :=
  s.noc.bulk.any (fun p => clusterHome s p.k == site && p.addr / 64 ≤ line && line < p.addr / 64 + p.lines &&
    (match p.kind with
     | .readReq m _ _ _ => m == 0#2
     | .readData m _ _ _ => m == 0#2
     | _ => false))

/-- A cached read that misses waits for the fetch that its chiplet has sent (08 R221). -/
def awaitFetch (s : State) (h : Haul) (site line dst : Nat) : State :=
  addReads { s with noc := { s.noc with misses := s.noc.misses ++
    [{ site := site, line := line, k := h.k, e := h.e, task := h.task, dst := dst, circ := h.circ, merge := h.merge }] } } h.k h.e 1

/-- A line to be fetched: gathered with the reads before it where it follows them, at most 4 in one request. -/
def Walk.fetch (w : Walk) (h : Haul) (src dst : Nat) : Walk :=
  let w := w.flush h
  if 0 < w.n && w.src + 64 * w.n = src && w.dst + 64 * w.n = dst && w.n < 4 && sameWindow w.src src then { w with n := w.n + 1 }
  else
    let w := w.ask h
    { w with src := src, dst := dst, n := 1 }

/-- One line of a mover instruction (08 R215 to R217): a near line is read at its bank; another is looked up in the
remote cache in cached mode, or fetched. A destination above the module's addresses faults on any circuit (04 R93). -/
def Walk.line (w : Walk) (h : Haul) (src dst : Nat) : Walk :=
  if w.stop then w
  else
    let fail (a kind : Nat) : Walk :=
      let w := (w.flush h).ask h
      { w with s := addressFault w.s h.k h.e h.pc a kind, stop := true }
    if !addrOk w.s src then fail src 0
    else if 2 ^ 48 ≤ dst || (h.circ = 0 && !destOk w.s h dst) then fail dst 1
    else if nearLine h.k src then
      let p := checkPad w.s (padCluster src) src 64
      match p.2 with
      | some key =>
        { w with s := dataErrorPad p.1 (padCluster src) h.e key (key * 8 % padWindow / 64), stop := true, buf := [], n := 0 }
      | none => { w with s := p.1 }.deliver h dst (readBytes p.1 src 64)
    else
      let site := clusterHome w.s h.k
      let line := src / 64
      if h.mode = 0 then
        let c := cacheLook w.s site line
        match c.2 with
        | some data => { w with s := c.1 }.deliver h dst data
        | none =>
          let gathered : Bool := 0 < w.n && w.src ≤ src && src < w.src + 64 * w.n
          let w := if gathered then { w with s := c.1 }.ask h else { w with s := c.1 }
          if fetching w.s site line then { w with s := awaitFetch w.s h site line dst } else w.fetch h src dst
      else w.fetch h src dst

/-- The end of a walk: what is gathered leaves. -/
def Walk.finish (w : Walk) (h : Haul) : State := ((w.flush h).ask h).s

/-- Every line of a haul in turn. -/
def walkLines (h : Haul) (lines : List (Nat × Nat)) (s : State) : State :=
  let w := lines.foldl (fun (w : Walk) l => w.line h l.1 l.2) (Walk.begin_ s)
  markIssued (w.finish h) h.k h.e

end Sys2Proof.Machine
end

