-- ==== Sys2Proof/Machine/Mash.lean ====
section
/-!
DEFINITION. The mash stack and the grist selector (spec 06 R160 to R172): pushes, pops, transfers to the spill
area, the statistics of drains and the closing of windows.
-/
namespace Sys2Proof.Machine
open Sys2Proof

/-! ### Lanes -/

def Mash.depth (m : Mash) (lane : Nat) : Nat := if lane = 0 then m.depth0 else m.depth1
def Mash.lo (m : Mash) (lane : Nat) : Nat := if lane = 0 then m.lo0 else m.lo1
def Mash.outs (m : Mash) (lane : Nat) : List Nat := if lane = 0 then m.out0 else m.out1
def Mash.ins (m : Mash) (lane : Nat) : List Nat := if lane = 0 then m.in0 else m.in1
def Mash.setDepth (m : Mash) (lane v : Nat) : Mash := if lane = 0 then { m with depth0 := v } else { m with depth1 := v }
def Mash.setLo (m : Mash) (lane v : Nat) : Mash := if lane = 0 then { m with lo0 := v } else { m with lo1 := v }
def Mash.setOuts (m : Mash) (lane : Nat) (v : List Nat) : Mash :=
  if lane = 0 then { m with out0 := v } else { m with out1 := v }
def Mash.setIns (m : Mash) (lane : Nat) (v : List Nat) : Mash :=
  if lane = 0 then { m with in0 := v } else { m with in1 := v }

/-- The ring slot of an entry as a module address (06 R161). -/
def ringAddr (k : Nat) (m : Mash) (lane d : Nat) : Nat :=
  padAddr k (m.ring + (lane * m.cs + (if m.cs = 0 then 0 else d % m.cs)) * mashLines m.mfmt)
/-- The home of an entry in the spill area. -/
def homeAddr (m : Mash) (lane d : Nat) : Nat := m.spill + (lane * m.se + d) * mashLines m.mfmt * 64
/-- Bytes of an entry. -/
def mashBytes (m : Mash) : Nat := 64 * mashLines m.mfmt
/-- Where the scale lines of an entry begin, from the entry's first byte. -/
def mashScaleOff (m : Mash) : Nat := 16 * fmtBlockBytes m.mfmt

/-- Spills started while the lane holds more than CS - 2 resident entries, at most 2 transfers in flight (06 R163). -/
def startSpills (m : Mash) (lane : Nat) : Nat → Mash
  | 0 => m
  | n + 1 =>
    let out := m.outs lane
    if m.cs - 2 < m.depth lane - (m.lo lane + out.length) && out.length + (m.ins lane).length < 2 then
      startSpills (m.setOuts lane (out ++ [m.lo lane + out.length])) lane n
    else m

/-- Prefetches started while fewer than PF entries are resident and lower ones remain (06 R163). -/
def startFetches (m : Mash) (lane : Nat) : Nat → Mash
  | 0 => m
  | n + 1 =>
    let ins := m.ins lane
    if m.depth lane - (m.lo lane - ins.length) < m.pf && ins.length < m.lo lane
        && (m.outs lane).length + ins.length < 2 then
      startFetches (m.setIns lane (ins ++ [m.lo lane - 1 - ins.length])) lane n
    else m

/-- Whether a push must wait: its ring slot still holds an entry whose spill is in flight. -/
def pushWaits (m : Mash) (lane : Nat) : Bool :=
  m.cs ≠ 0 && (m.outs lane).any (fun d => d % m.cs == m.depth lane % m.cs)
/-- Whether a pop or peek must wait: its entry is not resident yet. -/
def popWaits (m : Mash) (lane : Nat) : Bool := 0 < m.depth lane && m.depth lane ≤ m.lo lane

/-- The mash state of a task; an empty one where the task has none. -/
def taskMash (s : State) (k task : Nat) : Option Mash := ((clusterAt s k).task task).mash
/-- The state with a task's mash state set. -/
def setMash (s : State) (k task : Nat) (m : Mash) : State :=
  modCluster s k (fun c => c.modTask task (fun t => { t with mash := some m }))

/-- The write ranges of a push. -/
def pushRanges (k : Nat) (m : Mash) (lane : Nat) : List Range :=
  [{ addr := ringAddr k m lane (m.depth lane), len := mashBytes m, write := true }]
/-- The read ranges of a pop or peek. -/
def popRanges (k : Nat) (m : Mash) (lane : Nat) : List Range :=
  [{ addr := ringAddr k m lane (m.depth lane - 1), len := mashBytes m, write := false }]

/-- The transfers that a change of the mash state starts, as packets: a spill to its home, a prefetch from it. One entry of the
network stands for the packets of a whole mash entry, which share their route. -/
def sendTransfers (s : State) (k lane : Nat) (old new : Mash) : State :=
  let here := clusterHome s k
  let send (kind : BulkKind) (a : State) (d : Nat) : State :=
    sendBulk a here (homeUnit a here (homeAddr new lane d)) 0 (fun w =>
      { kind := kind, k := k, e := 15, task := 0, ord := d, addr := homeAddr new lane d, lines := mashLines new.mfmt, data := []
        relay := none, way := w })
  let spill (a : State) (d : Nat) : State :=
    send (.spill lane) ((List.range (mashLines new.mfmt)).foldl (fun a i => cacheDrop a here (homeAddr new lane d / 64 + i)) a) d
  let s := ((new.outs lane).drop (old.outs lane).length).foldl spill s
  ((new.ins lane).drop (old.ins lane).length).foldl (send (.prefetch lane)) s

/-- A tile pushed on a lane: converted to MFMT, written as entry DEPTH; DEPTH rises; spills begin (06 R162). -/
def mashPush (s : State) (k task lane : Nat) (rows : List (List (Val × Val))) : State :=
  match taskMash s k task with
  | none => s
  | some m =>
    let a := ringAddr k m lane (m.depth lane)
    let w := packTile m.mfmt rows a (a + mashScaleOff m) 3 3
    let s := padWrites s k w.1
    let s := setFlags s k task w.2
    let m := { m.setDepth lane (m.depth lane + 1) with pushes := m.pushes + 1 }
    sendTransfers (setMash s k task (startSpills m lane 2)) k lane m (startSpills m lane 2)

/-- The top entry of a lane as rows of values. The controller reads the pending bank of a pending line (06 R165). -/
def mashTop (s : State) (k task lane : Nat) : List (List Val) :=
  match taskMash s k task with
  | none => []
  | some m =>
    let a := ringAddr k m lane (m.depth lane - 1)
    (List.range 128).map (fun i => tileRow m.mfmt (fun a n => latestBytes s a n) a (a + mashScaleOff m) 4 i)

/-- A pop (peek false: DEPTH falls) or a peek, with the prefetches that follow. -/
def mashTake (s : State) (k task lane : Nat) (peek : Bool) : State :=
  match taskMash s k task with
  | none => s
  | some m =>
    let m := if peek then m else { m.setDepth lane (m.depth lane - 1) with pops := m.pops + 1 }
    sendTransfers (setMash s k task (startFetches m lane 2)) k lane m (startFetches m lane 2)

/-! ### The grist selector (06 R170 to R172) -/

/-- The initial grist format of a cluster: task 0's descriptor. -/
def gristStart (c : Cluster) : Grist :=
  match (c.task 0).back with
  | some b => gristInit b.init
  | none => gristInit 0
/-- A grist entry of a cluster. -/
def gristAt (c : Cluster) (lid : Nat) : Grist := tget (gristStart c) c.grist lid

/-- A 32-bit count with saturation. -/
def satAdd (a b : Nat) : Nat := min (a + b) 0xFFFFFFFF

/-- Finite and not zero. -/
def finiteNonZero (v : Val) : Bool := v.isFin && !v.isZero

/-- Elements lost in a block under a shared scale: finite, not zero, and converted to zero (06 R171). A block that
takes scale FFh holds NaN, and loses none. -/
def lostScaled (f : Elem) (vs : List Val) : Nat :=
  let r := encodeBlock f vs vs
  if r.1 = 0xFF#8 then 0
  else ((vs.zip r.2.1).filter (fun p => finiteNonZero p.1 && p.2 % 2 ^ (f.width - 1) == 0)).length
/-- Elements lost in E5M2: converted to zero or to an infinity. -/
def lostE5m2 (vs : List Val) : Nat :=
  (vs.filter (fun v => finiteNonZero v &&
    (let c := (Elem.e5m2.encode false v).1 % 128
     c == 0 || c == 0x7C))).length

/-- The statistics of one drain added to an entry. `blocks` are the layout blocks that it writes. -/
def gristCount (g : Grist) (blocks : List (List (List Val))) : Grist :=
  { g with
    tiles := satAdd g.tiles 1
    n := satAdd g.n (blocks.foldl (fun a b => a + b.flatten.length) 0)
    lossT := satAdd g.lossT (blocks.foldl (fun a b => a + lostScaled .e4m3 b.flatten) 0)
    lossM := satAdd g.lossM (blocks.foldl (fun a b => a + b.foldl (fun c r => c + lostScaled .e3m2 r) 0) 0)
    lossE := satAdd g.lossE (blocks.foldl (fun a b => a + lostE5m2 b.flatten) 0) }

/-- A window closed (06 R172). -/
def gristClose (g : Grist) (lim h : Nat) : Grist :=
  let cands : List (BitVec 4 × Nat) := [(9#4, g.lossT), (7#4, g.lossM), (3#4, g.lossE)]
  let least : BitVec 4 × Nat := cands.foldl (fun b c => if c.2 < b.2 then c else b) (9#4, g.lossT)
  let best : BitVec 4 := ((cands.find? (fun c => decide (c.2 * 2 ^ lim ≤ g.n))).getD least).1
  let next : BitVec 4 × Nat :=
    if best = g.fmt then (g.cand, 0)
    else if best = g.cand then (g.cand, g.streak + 1)
    else (best, 1)
  let moved : Bool := h ≤ next.2
  { fmt := if moved then best else g.fmt, streak := if moved then 0 else next.2, cand := next.1
    windows := min (g.windows + 1) 0xFFFF, tiles := 0, n := 0, lossT := 0, lossM := 0, lossE := 0 }

/-- Every entry of a cluster whose TILES has reached WLEN closes its window. -/
def gristWindows (c : Cluster) : Cluster :=
  match (c.task 0).back with
  | none => c
  | some b => { c with grist := tmap c.grist (fun _ g => if b.wlen ≤ g.tiles then gristClose g b.lim b.h else g) }

/-- The address of the stored grist table: lines 1 to 32 of task 0's mash region. -/
def gristAddr (k : Nat) (b : BackDesc) : Nat := padAddr k (b.region + 1)

/-- The table as stored. -/
def gristTable (c : Cluster) : List Byte := (List.range 64).flatMap (fun i => gristBytes (gristAt c i))

/-- The table read from memory. -/
def gristLoad (s : State) (k : Nat) (c : Cluster) : Cluster :=
  match (c.task 0).back with
  | none => c
  | some b => { c with grist := (List.range 64).map (fun i => (i, gristOfBytes (readBytes s (gristAddr k b + 32 * i) 32))) }

end Sys2Proof.Machine
end

