-- ==== Sys2Proof/Machine/Matrix.lean ====
section
/-!
DEFINITION. What the matrix engines share (spec 05, 06): products into slots, start values, drains, merges and
format descriptors.
-/
namespace Sys2Proof.Machine
open Sys2Proof

/-- The read of an engine: the committed bank (02 R52). -/
def engineFetch (s : State) : Fetch := fun a n => readBytes s a n

/-- A pair started at +0 and +0 (03 R78). -/
def zeroPair : DWord := 0

/-- One PE: the products of a row and a column added in increasing k (05 R118, R119). In a cycle that allows gating a PE with
a zero element leaves its pair unchanged (05 R130, R143), also where 03 R76 would turn a loaded -0 into +0 (DEDUCED, log
entry 72). -/
def dotPair (gates : List Bool) (start : DWord) (ra rb : List Val) : DWord × Flags :=
  ((ra.zip rb).zip gates).foldl (fun acc x =>
    let a := x.1.1
    let b := x.1.2
    if x.2 && (a.isZero || b.isZero) then acc
    else
      let p := product a b
      let r := accumulate acc.1 p.1
      (r.1, acc.2 ||| p.2 ||| r.2)) (start, flagNone)

/-- Whether the columns of one product cycle allow gating: neither bus carries an infinity or a NaN (03 R76, 05 R143). -/
def gatesIn (colsA colsB : List (List Val)) : Bool :=
  colsA.all (fun c => c.all Val.isFin) && colsB.all (fun c => c.all Val.isFin)

/-- Whether each k lies in a product cycle that allows gating; at the MXFP4 pair rate a product cycle holds two k. -/
def gatesOf (a b : List (List Val)) (kdim : Nat) (paired : Bool) : List Bool :=
  let g := if paired then 2 else 1
  ((chunksOf g (turned Val.zero kdim a)).zip (chunksOf g (turned Val.zero kdim b))).flatMap (fun c =>
    List.replicate c.1.length (gatesIn c.1 c.2))

/-- The array: every row of A against every row of B, onto the start values (05 R118). -/
def multiply (gates : List Bool) (start : List DWord) (a b : List (List Val)) : List DWord × Flags :=
  let rows := a.zip (chunksOf 128 start)
  let rs := rows.flatMap (fun r => (b.zip r.2).map (fun c => dotPair gates c.2 r.1 c.1))
  (rs.map Prod.fst, rs.foldl (fun f r => f ||| r.2) flagNone)

/-- Products gated in one product cycle group (05 R143, R144): every product with a zero element, and none where gating is
suspended, inactive bands included (DESIGN CHOICE, log entry 72). -/
def gatedIn (colsA colsB : List (List Val)) : Nat :=
  if !gatesIn colsA colsB then 0
  else (colsA.zip colsB).foldl (fun n c =>
    n + (128 * 128 - (c.1.filter (fun v => !v.isZero)).length * (c.2.filter (fun v => !v.isZero)).length)) 0

/-- Products gated by an instruction; at the MXFP4 pair rate a product cycle holds two k. -/
def gatedCount (a b : List (List Val)) (kdim : Nat) (paired : Bool) : Nat :=
  let ca := turned Val.zero kdim a
  let cb := turned Val.zero kdim b
  let g := if paired then 2 else 1
  ((chunksOf g ca).zip (chunksOf g cb)).foldl (fun n c => n + gatedIn c.1 c.2) 0

/-- NAN_IN where an operand that was read holds NaN. -/
def rowsNan (rows : List (List Val)) : Flags := if rows.any (fun r => r.any Val.isNan) then flagNanIn else flagNone

/-- The pairs of a slot; a free slot holds no defined value and reads here as zero pairs, which the checks at issue
keep from happening (05 R126). -/
def slotPairs (r : EngineRec) (slot : Nat) : List DWord :=
  match tfind r.slots slot with
  | some x => x.pairs
  | none => List.replicate 16384 zeroPair

/-- A slot opened or continued with new pairs. -/
def putSlot (s : State) (k e slot group : Nat) (pairs : List DWord) : State :=
  modEngine s k e (fun r => { r with slots := tset r.slots slot { group := group, pairs := pairs } })
/-- A slot freed and its group closed. -/
def freeSlot (s : State) (k e slot : Nat) : State :=
  modEngine s k e (fun r => { r with slots := terase r.slots slot })

/-- Products counted (05 Table 5.12). -/
def countProducts (s : State) (k e formed gated : Nat) : State :=
  modEngine s k e (fun r => { r with
    products := r.products + BitVec.ofNat 64 formed, gated := r.gated + BitVec.ofNat 64 gated })

/-- One product of a matrix instruction: operands, start, slot and counts. -/
def accumulateTile (s : State) (k e task slot group : Nat) (opens paired : Bool) (a b : List (List Val)) (kdim : Nat) :
    State :=
  let start := if opens then List.replicate 16384 zeroPair else slotPairs (engineAt s k e) slot
  let r := multiply (gatesOf a b kdim paired) start a b
  let s := putSlot s k e slot group r.1
  let s := countProducts s k e (16384 * kdim) (gatedCount a b kdim paired)
  setFlags s k task (r.2 ||| rowsNan a ||| rowsNan b)

/-- An operand of a matrix instruction once its format is known: format, tile, scale rows, transposed or not. -/
structure Operand where
  fmt  : BitVec 4
  addr : Nat
  sa   : Nat
  turn : Bool
deriving DecidableEq, Repr

/-- The rows of an operand. -/
def Operand.rows (s : State) (o : Operand) (kb band : Nat) : List (List Val) :=
  if o.turn then operandTurned o.fmt (engineFetch s) o.addr o.sa kb band
  else operandRows o.fmt (engineFetch s) o.addr o.sa kb band
/-- Whether n bytes from an address run past the populated end of their window (05 R130). -/
def pastEnd (a n : Nat) : Bool := padSize < (a - padBase) % padWindow + n || 2 ^ 48 ≤ a

/-- The ranges that an operand reads: its active bands, K deep, with their scale rows; a transposed operand has its bands
along the stored columns (05 R121, R122; 06 R153). A tile that runs past the last line is named whole, so that it faults (05
R130). -/
def Operand.ranges (o : Operand) (kb band : Nat) : List Range :=
  let n := if o.turn then 4 else kb
  if pastEnd o.addr (tileBytes o.fmt n) || (fmtScaled o.fmt && pastEnd o.sa (scaleBytes o.fmt n)) then
    [{ addr := o.addr, len := tileBytes o.fmt n, write := false }, { addr := o.sa, len := scaleBytes o.fmt n, write := false }]
  else
    (List.range (if o.turn then band + 1 else kb)).flatMap (fun q =>
      let blocks := if o.turn then kb else band + 1
      { addr := o.addr + 4 * q * fmtBlockBytes o.fmt, len := blocks * fmtBlockBytes o.fmt, write := false } ::
      (if fmtScaled o.fmt then [{ addr := o.sa + 128 * q, len := 32 * blocks, write := false }] else []))

/-- The words of a slot as an engine reads them (08 R240). -/
def slotRange (k e slot : Nat) : Range := engineRange k e (16384 * slot) 16384

/-- The format of a descriptor line (06 Table 6.3). -/
def descFormat (s : State) (a : Nat) : BitVec 4 := BitVec.ofNat 4 ((readByte s a).toNat)
/-- A format that a descriptor may name. -/
def descLegal (f : BitVec 4) : Bool := f == 3#4 || f == 7#4 || f == 9#4

/-- An operand whose format stands in the word, or in the descriptor at its scale operand, whose scale rows begin
one line above (06 R157). -/
def operandOf (s : State) (k : Nat) (desc : Bool) (fmt : BitVec 4) (line scaleLine : Nat) (turn : Bool) : Operand :=
  if desc then
    { fmt := descFormat s (padAddr k scaleLine), addr := padAddr k line, sa := padAddr k (scaleLine + 1), turn := turn }
  else { fmt := fmt, addr := padAddr k line, sa := padAddr k scaleLine, turn := turn }

/-- The check of a format at start: a descriptor's code, the pairing, and no MX operand transposed. -/
def startFormatOk (descA descB : Bool) (a b : Operand) : Bool :=
  (!descA || descLegal a.fmt) && (!descB || descLegal b.fmt) && fmtPair a.fmt b.fmt &&
  !(a.turn && fmtMx a.fmt) && !(b.turn && fmtMx b.fmt)

/-- FMM and GMM (05 R130, 06 R156). `g` says that the engine is a G-engine, whose word has transpose and descriptor
bits. -/
def matrixMultiply (g : Bool) (s : State) (k e : Nat) (q : QInstr) : State :=
  let w := q.word
  let kb := fld w 88 7 + 1
  let da := g && bitFld w 120
  let db := g && bitFld w 121
  let descs : List Range :=
    (if da then [{ addr := padAddr k (extLine q 8), len := 64, write := false }] else []) ++
    (if db then [{ addr := padAddr k (extLine q 32), len := 64, write := false }] else [])
  guarded s k e q descs (fun s =>
    let a := operandOf s k da (fmtFld w 96) (lineAt q 40) (extLine q 8) (g && bitFld w 118)
    let b := operandOf s k db (fmtFld w 100) (lineAt q 64) (extLine q 32) (g && bitFld w 119)
    if startFormatOk da db a b then
      let slot := if fld w 112 2 = 1 then [] else [slotRange k e (fld w 104 3)]
      guarded s k e q (a.ranges kb (fld w 114 2) ++ b.ranges kb (fld w 116 2) ++ slot) (fun s =>
        accumulateTile s k e q.task (fld w 104 3) (fld w 108 3) (fld w 112 2 == 1) (a.fmt == 8#4 && b.fmt == 8#4)
          (a.rows s kb (fld w 114 2)) (b.rows s kb (fld w 116 2)) (32 * kb))
    else streamFault s k 3 e q.pc)

/-- The start value that FLOAD and GLOAD read (05 R132): pairs, or FP32 values with C at +0; a NaN is loaded as the
canonical NaN with C at +0 and sets NAN_IN. -/
def loadPair (p : DWord) : DWord := if (val32 (pairS p)).isNan then mkPair nan32 0 else p
/-- NAN_IN where the S of a pair is NaN. -/
def pairsNan (ps : List DWord) : Flags := if ps.any (fun p => (val32 (pairS p)).isNan) then flagNanIn else flagNone

/-- A tile in scratchpad as pairs: the pair format as it is, FP32 with C at +0. -/
def tilePairs (s : State) (fmt : BitVec 4) (a : Nat) : List DWord :=
  if fmt = 10#4 then readPairs (engineFetch s) a
  else (List.range 128).flatMap (fun i => (List.range 4).flatMap (fun q =>
    (rowCodes fmt (readBytes s (a + (4 * q + i / 32) * fmtBlockBytes fmt + i % 32 * fmtRowBytes fmt) (fmtRowBytes fmt))).map
      (fun c => mkPair (widen ((match fmtElem fmt with
        | some f => f.decode c
        | none => Val.nan))) 0)))

/-- FLOAD and GLOAD. -/
def matrixLoad (s : State) (k e : Nat) (q : QInstr) : State :=
  let w := q.word
  let fmt := fmtFld w 64
  let a := padAddr k (lineAt q 40)
  guarded s k e q [{ addr := a, len := tileBytes fmt 4, write := false }] (fun s =>
    let ps := tilePairs s fmt a
    setFlags (putSlot s k e (fld w 68 3) (fld w 72 3) (ps.map loadPair)) k q.task (pairsNan ps))

/-- FCLEAR and GCLEAR (05 R135). -/
def matrixClear (s : State) (k e : Nat) (q : QInstr) : State := freeSlot s k e (fld q.word 68 3)

/-- The drained values of a slot, rows of 128: the exact S + C with its FP32 rounding (03 R82). -/
def slotRows (pairs : List DWord) : List (List DWord) := chunksOf 128 pairs

/-- Pairs outside the drained bands are pushed as +0 (06 R162). -/
def bandRows (rows : List (List (Val × Val))) (rowb colb : Nat) : List (List (Val × Val)) :=
  rows.zipIdx.map (fun r => r.1.zipIdx.map (fun c =>
    if r.2 / 32 ≤ rowb && c.2 / 32 ≤ colb then c.1 else (Val.zero, Val.zero)))

/-- A row of FP32 words after a forward function, with flags. -/
def funcRow (code : Nat) (vs : List Word) : List Word × Flags :=
  let rs := vs.map (forwardFn code)
  (rs.map Prod.fst, rs.foldl (fun f r => f ||| r.2) flagNone)

/-- The values that a drain writes, after its function, over the bands (05 R134; 06 R159, R168): an F-engine's identity keeps
the exact value; a G-engine's gives the FP32 rounding v; a forward function acts on v; a derivative multiplies v by d(z). A
NaN in v sets NAN_IN, and the rounding to FP32 sets its flags. -/
def drainRows (g : Bool) (code : Nat) (pairs : List (List DWord)) (z : List (List Val)) (rowb colb : Nat) :
    List (List (Val × Val)) × Flags :=
  let inBand (i j : Nat) : Bool := i / 32 ≤ rowb && j / 32 ≤ colb
  let outs : List (List ((Val × Val) × Flags)) := pairs.zipIdx.map (fun r => r.1.zipIdx.map (fun c =>
    if !inBand r.2 c.2 then ((Val.zero, Val.zero), flagNone)
    else
      let v := round32 (pairVal c.1)
      if code = 0 then (if g then (wordVal v.1, v.2 ||| nanIn v.1) else (drainVal c.1, nanIn v.1))
      else
        let o := if isDeriv code then derivFn code v.1 (widen ((z.getD r.2 []).getD c.2 Val.zero)) else forwardFn code v.1
        (wordVal o.1, v.2 ||| o.2)))
  (outs.map (fun r => r.map Prod.fst), outs.flatten.foldl (fun f o => f ||| o.2) flagNone)

/-- The values that a drain pushes to the mash stack: an F-engine the exact S + C, a G-engine v (05 R134, 06 R168). -/
def pushRows (g : Bool) (pairs : List (List DWord)) : List (List (Val × Val)) :=
  pairs.map (fun r => r.map (fun p => if g then wordVal (round32 (pairVal p)).1 else drainVal p))

/-- The blocks of an output that the bands name. -/
def bandBlocks (rows : List (List (Val × Val))) (rowb colb : Nat) : List (List (List Val)) :=
  (List.range (colb + 1)).flatMap (fun q => (List.range (rowb + 1)).map (fun r =>
    (pieceOf rows r q).map (fun row => row.map Prod.fst)))

/-- What a drain does, read from its word. -/
structure Drain where
  g     : Bool
  fmt   : BitVec 4
  slot  : Nat
  rowb  : Nat
  colb  : Nat
  func  : Nat
  mash  : Bool
  dest  : Bool
  grist : Bool
  lid   : Nat
  twin  : Bool
  lane  : Nat
deriving DecidableEq, Repr

/-- The drain that a word names, with its mash lane. An F-engine's word has the fields of Table 5.7 only. -/
def drainOf (g : Bool) (c : Cluster) (q : QInstr) (lane : Nat) : Drain :=
  let w := q.word
  let grist := g && bitFld w 86
  { g := g, fmt := if grist then (gristAt c (fld w 87 6)).fmt else fmtFld w 64
    slot := fld w 68 3, rowb := fld w 76 2, colb := fld w 78 2, func := fld w 80 4, mash := bitFld w 84
    dest := g && bitFld w 85, grist := grist, lid := fld w 87 6, twin := g && bitFld w 93, lane := lane }

/-- The descriptor line (06 Table 6.3). -/
def descLine (fmt : BitVec 4) (lid : Nat) : List Byte := leBytes 64 (fmt.toNat + 256 * lid)

/-- The writes of one output tile: pairs unchanged, or converted; with GRIST the descriptor stands at the scale
operand and the scale rows follow it. -/
def drainWrites (d : Drain) (pairs : List (List DWord)) (rows : List (List (Val × Val))) (out so : Nat)
    (rowb colb : Nat) : List Write × Flags :=
  if d.fmt = 10#4 then (packPairs pairs out rowb colb, flagNone)
  else
    let r := packTile d.fmt rows out (if d.grist then so + 64 else so) rowb colb
    (r.1 ++ (if d.grist then [(so, descLine d.fmt d.lid)] else []), r.2)

/-- The address fault of a mash operation (06 R166): a push on a full lane is a write fault, a pop or peek on an empty
one a read fault; the kind is answered. -/
def mashFault (m : Option Mash) (lane : Nat) (push pop : Bool) : Option Nat :=
  match m with
  | none => none
  | some m =>
    if push && m.se ≤ m.depth lane then some 1
    else if pop && m.depth lane = 0 then some 0
    else none

/-- An address fault whose address the spec does not state: a free value (log entry 4). -/
def freeAddressFault (s : State) (k e pc kind : Nat) : State :=
  let d := drawNat s
  addressFault d.2 k e pc (d.1 % 2 ^ 48) kind

/-- Whether a mash operation must wait for a transfer (06 R163). -/
def mashReady (m : Option Mash) (lane : Nat) (push pop : Bool) : Bool :=
  match m with
  | none => true
  | some m => !(push && pushWaits m lane) && !(pop && popWaits m lane)

/-- The effect of FDRAIN, and of GDRAIN with DEST 0 (05 R134, 06 R168). -/
def drainTile (s : State) (k e : Nat) (q : QInstr) (d : Drain) : State :=
  let m := taskMash s k q.task
  let pop := isDeriv d.func
  match mashFault m d.lane d.mash pop with
  | some kind => freeAddressFault s k e q.pc kind
  | none =>
    let pairs := slotRows (slotPairs (engineAt s k e) d.slot)
    let z := if pop then mashTop s k q.task d.lane else []
    let r := if d.fmt = 10#4 then ([], flagNone) else drainRows d.g d.func pairs z d.rowb d.colb
    let o := drainWrites d pairs r.1 (padAddr k (lineAt q 40)) (padAddr k (extLine q 8)) d.rowb d.colb
    let t := if d.twin then
        drainWrites d [] (turned (Val.zero, Val.zero) 128 r.1) (padAddr k (extLine q 32)) (padAddr k (extLine q 56))
          d.colb d.rowb
      else ([], flagNone)
    let ranges := (match m with
      | some m => (if d.mash then pushRanges k m d.lane else []) ++ (if pop then popRanges k m d.lane else [])
      | none => [])
    guarded s k e q (slotRange k e d.slot :: writeRanges (o.1 ++ t.1) ++ ranges) (fun s =>
      let s := if d.mash then mashPush s k q.task d.lane (bandRows (pushRows d.g pairs) d.rowb d.colb) else s
      let s := if pop then mashTake s k q.task d.lane false else s
      let s := padWrites s k (o.1 ++ t.1)
      let s := setFlags s k q.task (r.2 ||| o.2 ||| t.2 ||| rowsNan z ||| widenFlags z)
      let s := if d.grist then
          modCluster s k (fun c => { c with
            grist := tset c.grist d.lid (gristCount (gristAt c d.lid) (bandBlocks r.1 d.rowb d.colb)) })
        else s
      freeSlot s k e d.slot)

/-- The effect of GDRAIN with DEST 1: v in BF16 into the engine's slice buffer (06 R168, R179). -/
def drainSlice (s : State) (k e : Nat) (q : QInstr) (d : Drain) : State :=
  guarded s k e q [slotRange k e d.slot] (fun s =>
    let vs := (slotPairs (engineAt s k e) d.slot).map (fun p => round32 (pairVal p))
    let rs := vs.map (fun v => Elem.bf16.encode false (val32 v.1))
    let s := modEngine s k e (fun r => { r with slice := some (rs.map (fun x => BitVec.ofNat 16 x.1)) })
    let s := setFlags s k q.task (rs.foldl (fun f r => f ||| r.2) (vs.foldl (fun f v => f ||| v.2 ||| nanIn v.1) flagNone))
    freeSlot s k e d.slot)

/-- Whether a drain may start: its mash entry is free to write or has arrived, its slice buffer is empty. -/
def drainReady (s : State) (k e : Nat) (q : QInstr) (d : Drain) : Bool :=
  mashReady (taskMash s k q.task) d.lane d.mash (isDeriv d.func) &&
  (!d.dest || (engineAt s k e).slice.isNone)

end Sys2Proof.Machine
end

