-- ==== Sys2Proof/Machine/Movers.lean ====
section
/-!
DEFINITION. The mover commands (spec 08 R214 to R219, 09 R249 to R253, R258 to R260).
-/
namespace Sys2Proof.Machine
open Sys2Proof

/-- Whether every earlier instruction of a mover has its read data, so that the next takes effect after it (04 R101). -/
def moverFree (s : State) (k e : Nat) : Bool := (engineAt s k e).flight.all (fun f => f.reads == 0)

/-- The lines of MCOPY and MADD, source and destination, row by row (08 R215). -/
def copyLines (q : QInstr) : List (Nat × Nat) :=
  let w := q.word
  let x := q.extw
  let src := fld w 40 48 + 64 * (idxReg q.idx (fld w 114 3)).toNat
  let dst := fld x 8 48 + 64 * (idxReg q.idx (fld w 117 3)).toNat
  (List.range (fld x 64 16 + 1)).flatMap (fun r => (List.range (fld w 88 24 + 1)).map (fun l =>
    (src + 64 * (r * fld x 80 24 + l), dst + 64 * (r * fld x 104 24 + l))))

/-- The haul of MCOPY and MADD. -/
def copyHaul (merge : Bool) (k e : Nat) (q : QInstr) : Haul :=
  { k := k, e := e, task := q.task, pc := q.pc, circ := fld q.extw 56 8, merge := merge, barrier := wBarrier q.word
    mode := fld q.word 112 2, relay := none }

/-- The effect of MCOPY and MADD. -/
def moveLines (merge : Bool) (s : State) (k e : Nat) (q : QInstr) : State :=
  (walkLines (copyHaul merge k e q) (copyLines q) s)

/-- MNOP (08 Table 8.2). -/
def execMnop (k : ClusterId) (e : MSel) (s : State) : Host.Outcome State Fault Refusal :=
  .next (runEngine s k.val (engineCode (.m e)) 0 (fun s _ => moverFree s k.val (engineCode (.m e))) (fun s _ => s))

/-- MCOPY (08 R215 to R217). -/
def execMcopy (k : ClusterId) (e : MSel) (s : State) : Host.Outcome State Fault Refusal :=
  .next (runEngine s k.val (engineCode (.m e)) 1 (fun s _ => moverFree s k.val (engineCode (.m e)))
    (fun s q => moveLines false s k.val (engineCode (.m e)) q))

/-- MADD (08 R218). -/
def execMadd (k : ClusterId) (e : MSel) (s : State) : Host.Outcome State Fault Refusal :=
  .next (runEngine s k.val (engineCode (.m e)) 2 (fun s _ => moverFree s k.val (engineCode (.m e)))
    (fun s q => moveLines true s k.val (engineCode (.m e)) q))

/-! ### MSIG (09 Table 9.1) -/

def mDcl (q : QInstr) : Nat := fld q.word 40 9
def mObj (q : QInstr) : Nat := fld q.word 49 6
def mTask (q : QInstr) : Nat := fld q.word 55 2
def mOp (q : QInstr) : Nat := fld q.word 57 2
def mAmount (q : QInstr) : Nat := fld q.word 59 16
def mCirc (q : QInstr) : Nat := fld q.word 75 8
def mRelay (q : QInstr) : Bool := bitFld q.word 83
def mMerge (q : QInstr) : Bool := bitFld q.word 84

/-- Whether an unacknowledged write makes a signal without FENCE unfenced (09 R253). -/
def unfenced (s : State) (k e : Nat) (q : QInstr) : Bool :=
  let r := engineAt s k e
  let dest := if mCirc q = 0 then mDcl q else 2000 + (circuitPeer s (mCirc q)).getD 0 * 512 + mDcl q
  !wFence q.word && (r.unacked.any (fun w => w.2 == dest) || (r.overflow && !r.unacked.isEmpty))

/-- The signal of an MSIG. -/
def mSignal (s : State) (k e : Nat) (q : QInstr) (relay : Option Nat) : Signal :=
  { srcK := k, srcE := e, dstK := mDcl q, task := mTask q, obj := mObj q, op := mOp q, amount := mAmount q
    circ := mCirc q, unf := unfenced s k e q, relay := relay, remote := mCirc q != 0 }

/-- Whether the destination cluster and task of a signal exist on this module (09 R250). -/
def signalTarget (s : State) (k t : Nat) : Bool := clusterHeld s k && (clusterAt s k).hasTask t

/-- A signal set out on the sync network: behind the signals of its pair that are held, since they follow one route at a time
(10 R275). -/
def sendSync (s : State) (src : Nat) (came : Option (BitVec 128)) (g : Signal) : State :=
  let dst := (siteBy s src (g.dstK / 8)).getD 0
  let waiting := s.noc.sync.any (fun p => p.way.held && p.way.at_ == src && p.way.dest == dst)
  inject s src dst (g.dstK % 8) waiting (fun s w =>
    { s with noc := { s.noc with sync := s.noc.sync ++ [{ sig := g, leaves := none, came := came, way := w }] } })

/-- A signal sent: applied at once where its destination is the sender's own cluster, else on the sync network or on
its circuit. An unfenced one is counted. -/
def sendSignal (s : State) (g : Signal) (barrier : Bool) (lines : Nat) : State :=
  let s := if g.unf then modCluster s g.srcK (fun c => { c with unfenced := c.unfenced + 1 }) else s
  if g.circ != 0 then
    let dmod := (circuitPeer s g.circ).getD 0
    sendFab s (clusterHome s g.srcK) (sentOf g.srcK g.srcE 2 [] false) (some g) {
      header := mkHeader (headerLow 4 barrier false false (frameTag s) g.circ (myModule s) dmod 0 0) (headerSync g lines)
      payload := [] }
  else if g.dstK = g.srcK && g.relay.isNone then (receiveSignal s g).getD s
  else sendSync s (clusterHome s g.srcK) none g

/-- The effect of an MSIG without RELAY. -/
def plainSignal (s : State) (k e : Nat) (q : QInstr) : State :=
  if mCirc q = 0 && !signalTarget s (mDcl q) (mTask q) then freeAddressFault s k e q.pc 2
  else sendSignal s (mSignal s k e q none) (wBarrier q.word) 0

/-- When an MSIG without RELAY may start: with FENCE, once every earlier write of its mover is acknowledged (09 Table
9.2). -/
def signalReady (op : Nat) (s : State) (k e : Nat) (q : QInstr) : Bool :=
  !mRelay q && mOp q == op && moverFree s k e && (!wFence q.word || (engineAt s k e).unacked.isEmpty)

/-- MSIG with OP add (09 R245, R249). -/
def execMsigAdd (k : ClusterId) (e : MSel) (s : State) : Host.Outcome State Fault Refusal :=
  .next (runEngine s k.val (engineCode (.m e)) 3 (fun s q => signalReady 0 s k.val (engineCode (.m e)) q)
    (fun s q => plainSignal s k.val (engineCode (.m e)) q))
/-- MSIG with OP subtract (09 R245). -/
def execMsigSubtract (k : ClusterId) (e : MSel) (s : State) : Host.Outcome State Fault Refusal :=
  .next (runEngine s k.val (engineCode (.m e)) 3 (fun s q => signalReady 1 s k.val (engineCode (.m e)) q)
    (fun s q => plainSignal s k.val (engineCode (.m e)) q))
/-- MSIG with OP set (09 R245). -/
def execMsigSet (k : ClusterId) (e : MSel) (s : State) : Host.Outcome State Fault Refusal :=
  .next (runEngine s k.val (engineCode (.m e)) 3 (fun s q => signalReady 2 s k.val (engineCode (.m e)) q)
    (fun s q => plainSignal s k.val (engineCode (.m e)) q))

/-- The lines of a relay transfer (09 Table 9.1). -/
def relayLines (k : Nat) (q : QInstr) : List (Nat × Nat) :=
  (List.range (fld q.extw 56 12 + 1)).map (fun i =>
    (padAddr k (extLine q 8 + i), padAddr (mDcl q) (extLine q 32 + i)))

/-- The effect of an MSIG with RELAY: the lines, and behind them the signal, which no line's fault lets leave. -/
def relaySignal (s : State) (k e : Nat) (q : QInstr) : State :=
  if mCirc q = 0 && !signalTarget s (mDcl q) (mTask q) then freeAddressFault s k e q.pc 2
  else
    let g := mSignal s k e q (some s.noc.nextId)
    let h : Haul := { k := k, e := e, task := q.task, pc := q.pc, circ := mCirc q, merge := mMerge q
                      barrier := wBarrier q.word, mode := 0, relay := some s.noc.nextId }
    let lines := relayLines k q
    let far := mCirc q = 0 && mDcl q != k
    let s := { s with noc := { s.noc with
      nextId := s.noc.nextId + 1
      relays := s.noc.relays ++ (if mCirc q = 0 then [{ id := s.noc.nextId, left := if far then lines.length else 0 }] else []) } }
    let s := if !far && mCirc q = 0 then modCluster s k (fun c => { c with relayLines := c.relayLines + BitVec.ofNat 64 lines.length }) else s
    let w := lines.foldl (fun (w : Walk) l => w.line h l.1 l.2) (Walk.begin_ s)
    if w.stop then w.s
    else sendSignal (markIssued (w.finish h) k e) g (wBarrier q.word) (lines.length - 1)

/-- MSIG with RELAY (09 R258 to R260). -/
def execMsigRelay (k : ClusterId) (e : MSel) (s : State) : Host.Outcome State Fault Refusal :=
  .next (runEngine s k.val (engineCode (.m e)) 3 (fun s q => mRelay q && moverFree s k.val (engineCode (.m e)))
    (fun s q => relaySignal s k.val (engineCode (.m e)) q))

end Sys2Proof.Machine
end

