-- ==== Sys2Proof/Machine/Delivery.lean ====
section
/-!
DEFINITION. Completion of engine instructions, and the delivery of packets of the sync and bulk networks (spec 04
R99, R100; 08 R218, R221, R236, R237, R241; 09 R245 to R247, R251, R260 to R264; 10 R280; 11 R314, R316).
-/
namespace Sys2Proof.Machine
open Sys2Proof

/-! ### Completion (04 R99, 09 R262) -/

/-- Whether an instruction in flight is complete: its reads are back and, with FENCE, every write of its engine up to
and including it is acknowledged. -/
def flightDone (r : EngineRec) (f : InFlight) : Bool :=
  f.reads == 0 && (!wFence f.instr.word || r.unacked.all (fun w => f.upTo < w.1))

/-- The fields of the diagnostic control (09 Table 9.7). -/
def diagEngine (d : DWord) : Nat := bitsAt d.toNat 1 4
def diagSlot (d : DWord) : Nat := bitsAt d.toNat 5 3
def diagTask (d : DWord) : Nat := bitsAt d.toNat 8 2
def diagPc (d : DWord) : Nat := bitsAt d.toNat 12 20
def diagSkip (d : DWord) : Nat := bitsAt d.toNat 32 16

/-- A capture taken: the slot at full width, whether it was free, its group and the frame. Where an instruction that started
behind the trigger has changed the slot already, the slot is taken as it stood before. -/
def takeCapture (s : State) (c : Cluster) (later : Option InFlight) : Diag :=
  let slot := match later with
    | some f => f.before
    | none => tfind (c.engine (diagEngine c.diag.control)).slots (diagSlot c.diag.control)
  { c.diag with
    state := 2
    free := slot.isNone
    isOpen := slot.isSome
    group := (slot.map (fun x => x.group)).getD 0
    frame := s.tick.seq.extractLsb' 0 32
    capture := (slot.map (fun x => x.pairs)).getD [] }

/-- The trigger of diagnostic mode judged at a completion, with the instruction in flight that started next. The PC of an
instruction with an extension word is that of its second word (DESIGN CHOICE, log entry 72). -/
def diagTrigger (s : State) (k e : Nat) (q : QInstr) (later : Option InFlight) : State :=
  let c := clusterAt s k
  let d := c.diag
  if d.state = 1 && diagEngine d.control = e && diagTask d.control = q.task && diagPc d.control = q.pc then
    let d := { d with seen := d.seen + 1 }
    let d := if d.seen = diagSkip d.control + 1 then takeCapture s { c with diag := d } later else d
    modCluster s k (fun c => { c with diag := d })
  else s

/-- What completion does beyond the signal: UAPPLY with SLICE 0 empties the slice buffer that it consumed (06 R179). -/
def consumeSlice (s : State) (k e : Nat) (q : QInstr) : State :=
  if e = 8 && wOpcode q.word = 1 && !bitFld q.word 124 then
    modEngine s k (fld q.word 114 4) (fun r => { r with slice := none })
  else s

/-- INSTRUCTION_COMPLETE (04 R99, R100). -/
def execInstructionComplete (k : ClusterId) (e : Engine) (i : Nat) (s : State) : Host.Outcome State Fault Refusal :=
  let r := engineAt s k.val (engineCode e)
  match r.flight[i]? with
  | none => .next s
  | some f =>
    if jobRunning s && flightDone r f then
      let s := modEngine s k.val (engineCode e) (fun r => { r with flight := dropAt r.flight i })
      let s := consumeSlice s k.val (engineCode e) f.instr
      let s := diagTrigger s k.val (engineCode e) f.instr r.flight[i + 1]?
      .next (localSignal s k.val (engineCode e) f.instr)
    else .next s

/-! ### The sync network -/

/-- What tells the senders and destinations of signals apart: cluster, engine, destination, circuit, and the module where it
came from another. -/
def signalPair (p : SyncPacket) : Nat × Nat × Nat × Nat × Option Nat :=
  (p.sig.srcK, p.sig.srcE, p.sig.dstK, p.sig.circ, p.came.map hSmod)
/-- Whether a signal is the first of its sender to its destination (09 R247). -/
def firstSignal (l : List SyncPacket) (i : Nat) (p : SyncPacket) : Bool := (l.take i).all (fun x => signalPair x != signalPair p)

/-- The packet gone from the sync network. -/
def takeSyncPacket (s : State) (i : Nat) : State := { s with noc := { s.noc with sync := dropAt s.noc.sync i } }

/-- A packet for a site whose compute domain is in reset or retired is sunk (10 R289). -/
def sunkAt (s : State) (u : Nat) : Bool :=
  !isRim u && ((siteAt s u).state == .computeReset || (siteAt s u).state == .forwardOnly)
/-- A sunk packet counted. -/
def countSunk (s : State) (u : Nat) : State := modSite s u (fun r => { r with sunk := r.sunk + 1 })

/-- Flits of the sync network's packets other than packet i in the buffer behind a hop. -/
def syncFlits (s : State) (i : Nat) (h : Hop) : Nat := ((dropAt s.noc.sync i).filter (fun x => x.way.buffer == some h)).length

/-- A signal at its destination: at the rim die of its circuit it leaves the panel; at its cluster it is applied, and one that
came in a fabric packet is acknowledged. A full inbox holds it back. -/
def signalThere (s : State) (p : SyncPacket) : Option State :=
  match p.leaves with
  | some x => some (enterRim s x.1 x.2)
  | none =>
    (receiveSignal s p.sig).map (fun t => match p.came with
      | some h => sendBare t (ackPacket t h p.sig.srcK p.sig.srcE false)
      | none => t)

/-- A packet of the sync network moved towards its destination, and delivered there. -/
def deliverSignal (s : State) (i : Nat) (p : SyncPacket) : State :=
  let m := moveOn s (fun h => bufferFlits ≤ syncFlits s i h) p.way
  match m.2 with
  | none => takeSyncPacket m.1 i
  | some w =>
    let stay : State := { m.1 with noc := { m.1.noc with sync := m.1.noc.sync.set i { p with way := w } } }
    if !w.arrived then stay
    else if sunkAt m.1 w.dest then countSunk (takeSyncPacket m.1 i) w.dest
    else (signalThere (takeSyncPacket m.1 i) p).getD stay

/-- SYNC_SIGNAL_ARRIVAL (09 R245, R247). -/
def execSyncSignalArrival (i : Nat) (s : State) : Host.Outcome State Fault Refusal :=
  match s.noc.sync[i]? with
  | none => .next s
  | some p =>
    if jobRunning s && (p.sig.relay.isNone || p.leaves.isSome) && firstSignal s.noc.sync i p then .next (deliverSignal s i p)
    else .next s

/-- The fabric relay counts that have a signal waiting. -/
def relayWaiting (s : State) : List (Nat × RelayCount) :=
  ((s.fab.relay.zipIdx).map (fun p => (p.2, p.1))).filter (fun p => !p.2.waiting.isEmpty)

/-- A relay signal from another module applied, once the lines counted cover it, and acknowledged (11 R315, R317). -/
def applyFabricRelay (s : State) (j : Nat) : State :=
  match (relayWaiting s)[j]? with
  | none => s
  | some p =>
    match p.2.waiting with
    | [] => s
    | w :: r =>
      if p.2.used + w.2.1 ≤ p.2.lines then
        match receiveSignal s w.1 with
        | none => s
        | some t =>
          let c := { p.2 with used := p.2.used + w.2.1, waiting := r }
          sendBare { t with fab := { t.fab with relay := t.fab.relay.set p.1 c } } (ackPacket t w.2.2 w.1.srcK w.1.srcE false)
      else s

/-- RELAY_SIGNAL_APPLY (09 R260, 11 R317): packet i of the sync network where it is a relay signal of the panel whose
lines have all arrived, and beyond the sync network's packets the waiting relay signals of other modules. -/
def execRelaySignalApply (i : Nat) (s : State) : Host.Outcome State Fault Refusal :=
  if !jobRunning s then .next s
  else match s.noc.sync[i]? with
    | none => .next (applyFabricRelay s (i - s.noc.sync.length))
    | some p =>
      match p.sig.relay, p.leaves with
      | some id, none =>
        if s.noc.relays.any (fun r => r.id == id && r.left == 0) && firstSignal s.noc.sync i p then
          let t := deliverSignal s i p
          .next (if t.noc.sync.length < s.noc.sync.length then
            { t with noc := { t.noc with relays := t.noc.relays.filter (fun r => r.id != id) } } else t)
        else .next s
      | _, _ => .next s

/-! ### The bulk network -/

/-- The packet gone from the network. -/
def takeBulk (s : State) (i : Nat) : State := { s with noc := { s.noc with bulk := dropAt s.noc.bulk i } }

/-- Whether a kind of packet is of the response class (10 Table 10.1). -/
def BulkKind.response : BulkKind → Bool
  | .readData _ _ _ _ => true
  | .ack _ _ => true
  | .mirrorAck _ => true
  | _ => false
/-- Flits of a packet: its header, and its lines where it carries them (10 R269). -/
def BulkPacket.flits (p : BulkPacket) : Nat :=
  match p.kind with
  | .readReq _ _ _ _ => 1
  | .ack _ _ => 1
  | .mirrorAck _ => 1
  | .prefetch _ => 1
  | _ => 1 + min 4 p.lines
/-- Whether a packet is for a router, which takes it though its site's compute domain is in reset. -/
def BulkKind.forRouter : BulkKind → Bool
  | .tree _ _ _ => true
  | _ => false

/-- Flits of packets of one class other than packet i in the buffer behind a hop (10 R273). -/
def bulkFlits (s : State) (i : Nat) (resp : Bool) (h : Hop) : Nat :=
  ((dropAt s.noc.bulk i).filter (fun x => x.kind.response == resp && x.way.buffer == some h)).foldl (fun n x => n + x.flits) 0

/-- A packet of the bulk network moved towards its destination. There it is sunk or takes effect; where it cannot take
effect yet, it waits. -/
def deliverBulk (s : State) (i : Nat) (p : BulkPacket) (eff : State → Option State) : State :=
  let m := moveOn s (fun h => bufferFlits < bulkFlits s i p.kind.response h + p.flits) p.way
  match m.2 with
  | none => takeBulk m.1 i
  | some w =>
    let stay : State := { m.1 with noc := { m.1.noc with bulk := m.1.noc.bulk.set i { p with way := w } } }
    if !w.arrived then stay
    else if sunkAt m.1 w.dest && !p.kind.forRouter then countSunk (takeBulk m.1 i) w.dest
    else (eff (takeBulk m.1 i)).getD stay

/-- The lines of a relay transfer counted at its destination (09 R260). -/
def countRelay (s : State) (p : BulkPacket) : State :=
  match p.relay with
  | none => s
  | some id =>
    let rs := s.noc.relays.map (fun r => if r.id = id then { r with left := r.left - p.lines } else r)
    let s := { s with noc := { s.noc with relays := rs } }
    modCluster s (padCluster p.addr) (fun c => { c with relayLines := c.relayLines + BitVec.ofNat 64 p.lines })

/-- The acknowledgement of a packet set out from the unit where it took effect, or where an error stopped it. -/
def ackBulk (s : State) (p : BulkPacket) (err : Bool) : State := ackAll s p.way.dest err p.addr [(p.k, p.e + 16 * p.task, p.ord)]

/-- Whole lines written at their home. -/
def homeWrite (s : State) (a : Nat) (data : List Byte) : State :=
  match placeOf a with
  | .pad k _ => padWrite s k a data
  | .stack n off =>
    modStack (writeBytes s a data) n (fun r =>
      { r with degraded := r.degraded.filter (fun l => !(off / 64 ≤ l && 64 * l < off + data.length)) })
  | _ => s

/-- Whether the write-through queue of the cluster that holds an address has room for some carry lines (08 R235). -/
def throughRoom (s : State) (a lines : Nat) : Bool :=
  match placeOf a with
  | .pad k _ => !rideThrough s || (regionOf s a).isNone || (clusterAt s k).wtQueue.length + lines ≤ 1024
  | _ => true

/-- A write at its home. A stack carry line goes on to the partner's uncommitted bank, and is acknowledged once that is
written too; any other is acknowledged at once (08 R219, R236). -/
def writeHome (s : State) (p : BulkPacket) : Option State :=
  if !throughRoom s p.addr p.lines then none
  else
    let t := countRelay (homeWrite s p.addr p.data) p
    match placeOf p.addr with
    | .stack n _ =>
      match if rideThrough s && (regionOf s p.addr).isSome then partnerOf s n else none with
      | some m => some (sendBulk t (72 + n) (72 + m) 0 (fun w => { p with kind := .mirror (72 + n), way := w }))
      | none => some (ackBulk t p false)
    | _ => some (ackBulk t p false)

/-- A carry line reaches a backing stack: it is written to the uncommitted bank, behind the earlier writes of the line to that
copy, and leaves the cluster's queue when both copies have it (08 R235). -/
def writeThrough (s : State) (p : BulkPacket) (copy : Nat) : Option State :=
  let line := p.addr / 64
  if s.noc.bulk.any (fun x => x.kind == .writeThrough copy && x.addr == p.addr && x.k == p.k && x.ord < p.ord) then none
  else
    let done (q : List WtLine) : List WtLine :=
      match q.find? (fun x => x.line == line && x.left.contains copy) with
      | none => q
      | some x => (q.map (fun y => if y = x then { y with left := y.left.erase copy } else y)).filter (fun y => !y.left.isEmpty)
    some (modCluster (writeCopy s copy p.addr p.data) p.k (fun c => { c with wtQueue := done c.wtQueue }))

/-- A mirror write at the partner: written, and reported to the home (08 R236). -/
def writeMirror (s : State) (p : BulkPacket) (home : Nat) : State :=
  sendBulk (writeCopy s 1 p.addr p.data) p.way.dest home 0 (fun w => { p with kind := .mirrorAck home, data := [], way := w })

/-- A part of a fabric packet at the rim die where its circuit leaves the module: the packet goes on once every part is there. -/
def fabricThere (s : State) (sp : SentPacket) (pkt : FabPacket) : State :=
  if s.noc.bulk.any (fun x => x.kind == .fabric sp pkt) then s else enterRim s sp pkt

/-- BULK_WRITE_RECEIVED (09 R251; 08 R235, R236; 10 Table 10.1). -/
def execBulkWriteReceived (i : Nat) (s : State) : Host.Outcome State Fault Refusal :=
  match s.noc.bulk[i]? with
  | none => .next s
  | some p =>
    if jobRunning s then
      match p.kind with
      | .write => .next (deliverBulk s i p (fun s => writeHome s p))
      | .writeThrough c => .next (deliverBulk s i p (fun s => writeThrough s p c))
      | .mirror home => .next (deliverBulk s i p (fun s => some (writeMirror s p home)))
      | .fabric sp pkt => .next (deliverBulk s i p (fun s => some (fabricThere s sp pkt)))
      | _ => .next s
    else .next s

/-- A merge at its home, with the acknowledgements of its writers; a data error there leaves them out. -/
def mergeHome (s : State) (p : BulkPacket) (acks : List (Nat × Nat × Nat)) : State :=
  let r := mergeAll acks s p.addr (chunksOf 64 p.data)
  if r.2 then countRelay (ackAll r.1 p.way.dest false p.addr acks) p else r.1

/-- MERGE_WRITE_RECEIVED (08 R218, 09 R259; 10 R280). -/
def execMergeWriteReceived (i : Nat) (s : State) : Host.Outcome State Fault Refusal :=
  match s.noc.bulk[i]? with
  | none => .next s
  | some p =>
    if jobRunning s then
      match p.kind with
      | .merge => .next (deliverBulk s i p (fun s => some (mergeHome s p [(p.k, p.e + 16 * p.task, p.ord)])))
      | .rootMerge acks => .next (deliverBulk s i p (fun s => some (mergeHome s p acks)))
      | _ => .next s
    else .next s

/-- A read served at its home: its data set out for the remote cache, or in stream mode for the reader (10 R271). -/
def serveRead (s : State) (p : BulkPacket) : State :=
  match p.kind with
  | .readReq mode dst circ merge =>
    let c := checkLines s p.addr p.lines
    if c.2 then
      sendBulk c.1 p.way.dest (clusterHome s p.k) (if mode = 2#2 then p.k % 8 else 0) (fun w =>
        { p with kind := .readData mode dst circ merge, data := readBytes c.1 p.addr (64 * p.lines), way := w })
    else c.1
  | _ => s

/-- BULK_READ_RECEIVED (08 R237, R241). -/
def execBulkReadReceived (i : Nat) (s : State) : Host.Outcome State Fault Refusal :=
  match s.noc.bulk[i]? with
  | none => .next s
  | some p =>
    match p.kind with
    | .readReq _ _ _ _ => .next (if jobRunning s then deliverBulk s i p (fun s => some (serveRead s p)) else s)
    | _ => .next s

/-- Fetched lines brought into the chiplet's remote cache: allocated in cached mode, and in fresh mode only over a copy that is
there (08 R217). -/
def fillLines (s : State) (site line : Nat) (mode : BitVec 2) : List (List Byte) → State
  | [] => s
  | d :: r =>
    fillLines (if mode = 0#2 || (mode = 1#2 && cacheHas s site line) then cacheFill s site line d else s) site (line + 1) mode r

/-- A mover's lines taken on to their destination, as its instruction in flight asks. -/
def moverLines (s : State) (k e task circ : Nat) (merge : Bool) (mode dst : Nat) (datas : List (List Byte)) : State :=
  let f := (engineAt s k e).flight.getLast?
  let h : Haul := { k := k, e := e, task := task, pc := (f.map (fun f => f.instr.pc)).getD 0, circ := circ, merge := merge
                    barrier := (f.map (fun f => wBarrier f.instr.word)).getD false, mode := mode, relay := none }
  let w := datas.zipIdx.foldl (fun (w : Walk) d => if w.stop then w else w.deliver h (dst + 64 * d.2) d.1)
    (Walk.begin_ (addReads s k e (-1)))
  markIssued (w.finish h) k e

/-- Read data at its chiplet: into the remote cache, on to the mover's destination, and to the movers that wait for a line of
the same fetch (08 R217, R221). -/
def useData (s : State) (p : BulkPacket) (mode : BitVec 2) (dst circ : Nat) (merge : Bool) : State :=
  let site := p.way.dest
  let datas := chunksOf 64 p.data
  let line := p.addr / 64
  let s := moverLines (fillLines s site line mode datas) p.k p.e p.task circ merge mode.toNat dst datas
  if mode != 0#2 then s
  else
    let mine (m : MissWait) : Bool := m.site == site && line ≤ m.line && m.line < line + p.lines
    let ms := s.noc.misses.filter mine
    ms.foldl (fun a m => moverLines a m.k m.e m.task m.circ m.merge 0 m.dst [datas.getD (m.line - line) []])
      { s with noc := { s.noc with misses := s.noc.misses.filter (fun m => !mine m) } }

/-- READ_DATA_RECEIVED (08 R221). -/
def execReadDataReceived (i : Nat) (s : State) : Host.Outcome State Fault Refusal :=
  match s.noc.bulk[i]? with
  | none => .next s
  | some p =>
    match p.kind with
    | .readData mode dst circ merge =>
      .next (if jobRunning s then deliverBulk s i p (fun s => some (useData s p mode dst circ merge)) else s)
    | _ => .next s

/-- The PC of the instruction that issued a write, where it is still in flight; a free value else. -/
def writerPc (s : State) (k e ord : Nat) : Nat × State :=
  match (engineAt s k e).flight.find? (fun f => ord ≤ f.upTo) with
  | some f => (f.instr.pc, s)
  | none => drawNat s

/-- Relay lines counted for a remote engine on a circuit (11 R317), and at their cluster (09 R260). -/
def countRemoteRelay (s : State) (h : BitVec 128) : State :=
  let same (c : RelayCount) : Bool := c.circ == hCirc h && c.smod == hSmod h && c.scl == hScl h && c.seng == hSeng h
  let n := hLines h + 1
  let rs := s.fab.relay
  let rs := if rs.any same then rs.map (fun c => if same c then { c with lines := c.lines + n } else c)
    else rs ++ [{ circ := hCirc h, smod := hSmod h, scl := hScl h, seng := hSeng h, lines := n, used := 0, waiting := [] }]
  let s := { s with fab := { s.fab with relay := rs } }
  if padBase ≤ 64 * hAddr h then
    modCluster s (padCluster (64 * hAddr h)) (fun c => { c with relayLines := c.relayLines + BitVec.ofNat 64 n }) else s

/-- A panel acknowledgement for an inbound fabric packet: after the last one the packet has taken effect, and its lines are
counted and its acknowledgement returned (11 R315, R317). -/
def inboundAck (s : State) (id : Nat) (err : Bool) : State :=
  match s.fab.inbound.find? (fun x => x.id == id) with
  | none => s
  | some x =>
    let y := { x with left := x.left - 1, err := x.err || err }
    if 0 < y.left then
      { s with fab := { s.fab with inbound := s.fab.inbound.map (fun z => if z.id = id then y else z) } }
    else
      let s := { s with fab := { s.fab with inbound := s.fab.inbound.filter (fun z => z.id != id) } }
      let s := if hRly x.header && hType x.header ≤ 1 then countRemoteRelay s x.header else s
      sendBare s (ackPacket s x.header (hScl x.header) (hSeng x.header) y.err)

/-- An acknowledgement where its write began: at the writing engine, where one with ERR is an address fault (11 R305), at the
rim die that took the write in, or at service cores, whose write is then outstanding no more. -/
def takeAck (s : State) (p : BulkPacket) (err : Bool) : State :=
  if 1024 ≤ p.k then inboundAck s (p.k - 1024) err
  else if (serviceRim p.k).isSome then s
  else
    let pc := writerPc s p.k p.e p.ord
    let s := ackWrite pc.2 p.k p.e p.ord
    if err then addressFault s p.k p.e pc.1 p.addr 1 else s

/-- A mirror's report at the home: the write is acknowledged (08 R236). -/
def mirrored (s : State) (p : BulkPacket) : State := ackBulk s p false

/-- BULK_ACK_RECEIVED (09 R251). -/
def execBulkAckReceived (i : Nat) (s : State) : Host.Outcome State Fault Refusal :=
  match s.noc.bulk[i]? with
  | none => .next s
  | some p =>
    match p.kind with
    | .ack err _ => .next (if jobRunning s then deliverBulk s i p (fun s => some (takeAck s p err)) else s)
    | .mirrorAck _ => .next (if jobRunning s then deliverBulk s i p (fun s => some (mirrored s p)) else s)
    | _ => .next s

/-! ### Rates, trees and ORD packets -/

/-- The send rate of a circuit in 64ths (11 R314). -/
def rateOf (s : State) (c : Nat) : Nat := tget 64 s.fab.rates c

/-- RATE_RAISE (11 R314): 10 µs of a circuit end; without an echo in them the rate rises by 1, up to 64. -/
def execRateRaise (c : BitVec 8) (s : State) : Host.Outcome State Fault Refusal :=
  let c := c.toNat
  if (circuitAt s c).isNone then .next s
  else if s.fab.echoSeen.contains c then
    .next { s with fab := { s.fab with echoSeen := s.fab.echoSeen.filter (fun x => x != c) } }
  else .next { s with fab := { s.fab with rates := tset s.fab.rates c (min 64 (rateOf s c + 1)) } }

/-- TREE_CONTRIBUTION_RECEIVED (10 R280, 11 R319). -/
def execTreeContributionReceived (i : Nat) (s : State) : Host.Outcome State Fault Refusal :=
  match s.noc.bulk[i]? with
  | none => .next s
  | some p =>
    match p.kind with
    | .tree code child acks =>
      .next (if jobRunning s then deliverBulk s i p (fun s => nodeReceive s code child p.addr p.data acks) else s)
    | _ => .next s

/-- ORD_PACKET_RELEASE (11 R316). -/
def execOrdPacketRelease (i : Nat) (s : State) : Host.Outcome State Fault Refusal :=
  .next (if jobRunning s || (s.fab.ordWait[i]?).any (fun x => 3 ≤ x.1.cls) then releaseOrd s i else s)

end Sys2Proof.Machine
end

