-- ==== Sys2Proof/Machine/Interlocks.lean ====
section
/-!
DEFINITION. The interlocks of the matrix engines: when the head of a queue may start while earlier instructions of its engine are
incomplete (spec 05 R137, R139 to R141; 06 R151, R189). What is in flight is incomplete.
-/
namespace Sys2Proof.Machine
open Sys2Proof

/-- The slots that an instruction of a matrix engine names. -/
def namedSlots (q : QInstr) : List Nat :=
  match wOpcode q.word with
  | 1 => [fld q.word 104 3]
  | 2 => [fld q.word 68 3]
  | 3 => [fld q.word 68 3]
  | 4 => [fld q.word 68 3]
  | 5 => [fld q.word 68 3]
  | 8 => [fld q.word 96 3, fld q.word 102 3]
  | _ => []

/-- The slots and groups that an instruction accumulates into, each with whether it opens the group. -/
def products (q : QInstr) : List (Nat × Nat × Bool) :=
  match wOpcode q.word with
  | 1 => [(fld q.word 104 3, fld q.word 108 3, fld q.word 112 2 == 1)]
  | 8 => [(fld q.word 96 3, fld q.word 99 3, bitFld q.word 108), (fld q.word 102 3, fld q.word 105 3, bitFld q.word 109)]
  | _ => []

/-- Whether the start value of a product is at hand (05 Table 5.9): a group that opens has it; one that goes on has it where
nothing incomplete names its slot, or where the last that does is one of the two products before it, into the same group.
GALT, whose two products share one instruction, counts as one of the products before (DEDUCED, log entry 72). -/
def startsFrom (flight : List QInstr) (p : Nat × Nat × Bool) : Bool :=
  p.2.2 ||
  (match (flight.filter (fun f => (namedSlots f).contains p.1)).getLast? with
   | none => true
   | some f => (products f).any (fun x => x.1 == p.1 && x.2.1 == p.2.1) &&
       ((flight.filter (fun x => !(products x).isEmpty)).reverse.take 2).contains f)

/-- The lines that an incomplete drain writes: whole tiles and scale rows (05 R141). -/
def drainLines (g : Bool) (s : State) (k : Nat) (q : QInstr) : List Range :=
  if wOpcode q.word != 3 then []
  else
    let d := drainOf g (clusterAt s k) q 0
    let tile (out so : Nat) : List Range :=
      [{ addr := padAddr k out, len := tileBytes d.fmt 4, write := true },
       { addr := padAddr k so, len := scaleBytes d.fmt 4 + (if d.grist then 64 else 0), write := true }]
    if d.dest then []
    else tile (lineAt q 40) (extLine q 8) ++ (if d.twin then tile (extLine q 32) (extLine q 56) else [])

/-- The lines that an instruction of a matrix engine reads. -/
def readLines (g : Bool) (s : State) (k : Nat) (q : QInstr) : List Range :=
  let w := q.word
  let x := q.extw
  let desc (on : Bool) (l : Nat) : List Range := if on then [{ addr := padAddr k l, len := 64, write := false }] else []
  let plain (lo : Nat) : List Range := [{ addr := padAddr k (lineAt q lo), len := tileBytes (fmtFld w 64) 4, write := false }]
  match wOpcode w with
  | 1 =>
    let da := g && bitFld w 120
    let db := g && bitFld w 121
    let kb := fld w 88 7 + 1
    let a := operandOf s k da (fmtFld w 96) (lineAt q 40) (extLine q 8) (g && bitFld w 118)
    let b := operandOf s k db (fmtFld w 100) (lineAt q 64) (extLine q 32) (g && bitFld w 119)
    desc da (extLine q 8) ++ desc db (extLine q 32) ++ a.ranges kb (fld w 114 2) ++ b.ranges kb (fld w 116 2)
  | 2 => plain 40
  | 5 => plain 40
  | 6 => plain 40 ++ [{ addr := padAddr k (extLine q 8), len := scaleBytes (fmtFld w 64) 4, write := false }]
  | 8 =>
    let gd := bitFld w 111
    let d := operandOf s k gd (fmtFld w 88) (lineAt q 40) (extLine q 36) false
    let wt := operandOf s k false (fmtFld w 92) (lineAt q 64) (extLine q 60) false
    let xt := operandOf s k false (fmtFld x 32) (extLine q 8) (extLine q 84) (bitFld w 110)
    desc gd (extLine q 36) ++ d.ranges 4 3 ++ wt.ranges 4 3 ++ xt.ranges 4 3
  | _ => []

/-- Whether no incomplete drain of the engine writes a line that an instruction reads (05 R141). -/
def readsClear (g : Bool) (s : State) (k e : Nat) (q : QInstr) : Bool :=
  (engineAt s k e).flight.all (fun f => !linesMeet (drainLines g s k f.instr) (readLines g s k q))

/-- Whether an instruction of the product path may start. -/
def mayStartProduct (g : Bool) (s : State) (k e : Nat) (q : QInstr) : Bool :=
  (products q).all (startsFrom ((engineAt s k e).flight.map (fun f => f.instr))) && readsClear g s k e q

/-- Whether an instruction of the slot path may start: every earlier instruction that names its slot is complete (05 R140). -/
def mayStartSlot (g : Bool) (s : State) (k e : Nat) (q : QInstr) : Bool :=
  (engineAt s k e).flight.all (fun f => !(namedSlots f.instr).any (namedSlots q).contains) && readsClear g s k e q

end Sys2Proof.Machine
end

