-- ==== Sys2Proof/Machine/Backward.lean ====
section
/-!
DEFINITION. The G-engine commands and the transfers of the mash stack (spec 06 Table 6.1, R163).
-/
namespace Sys2Proof.Machine
open Sys2Proof

/-- GNOP (06 R174). -/
def execGnop (k : ClusterId) (e : GSel) (s : State) : Host.Outcome State Fault Refusal :=
  .next (runEngine s k.val (engineCode (.g e)) 0 always (fun s _ => s))

/-- GMM (06 R153 to R157). -/
def execGmm (k : ClusterId) (e : GSel) (s : State) : Host.Outcome State Fault Refusal :=
  .next (runEngine s k.val (engineCode (.g e)) 1 (fun s q => mayStartProduct true s k.val (engineCode (.g e)) q)
    (fun s q => matrixMultiply true s k.val (engineCode (.g e)) q))

/-- GLOAD (06 R174). -/
def execGload (k : ClusterId) (e : GSel) (s : State) : Host.Outcome State Fault Refusal :=
  .next (runEngine s k.val (engineCode (.g e)) 2 (fun s q => mayStartSlot true s k.val (engineCode (.g e)) q)
    (fun s q => matrixLoad s k.val (engineCode (.g e)) q))

/-- The lane bit of a GDRAIN word (06 Table 6.7). -/
def gLane (q : QInstr) : Nat := fld q.word 94 1

/-- GDRAIN (06 R167 to R169). -/
def execGdrain (k : ClusterId) (e : GSel) (s : State) : Host.Outcome State Fault Refusal :=
  .next (runEngine s k.val (engineCode (.g e)) 3
    (fun s q => mayStartSlot true s k.val (engineCode (.g e)) q && drainReady s k.val (engineCode (.g e)) q (drainOf true (clusterAt s k.val) q (gLane q)))
    (fun s q =>
      let d := drainOf true (clusterAt s k.val) q (gLane q)
      if d.dest then drainSlice s k.val (engineCode (.g e)) q d
      else drainTile s k.val (engineCode (.g e)) q d))

/-- GCLEAR (06 R174). -/
def execGclear (k : ClusterId) (e : GSel) (s : State) : Host.Outcome State Fault Refusal :=
  .next (runEngine s k.val (engineCode (.g e)) 4 (fun s q => mayStartSlot true s k.val (engineCode (.g e)) q)
    (fun s q => matrixClear s k.val (engineCode (.g e)) q))

/-- The pairs that GMERGE merges in: a pair tile, or a BF16 tile as S = value and C = +0 (06 R175). -/
def mergeIn (s : State) (k e : Nat) (q : QInstr) : State :=
  let w := q.word
  let fmt := fmtFld w 64
  let a := padAddr k (lineAt q 40)
  let slot := fld w 68 3
  let slots := if bitFld w 75 then [] else [slotRange k e slot]
  guarded s k e q ({ addr := a, len := tileBytes fmt 4, write := false } :: slots) (fun s =>
    let start := if bitFld w 75 then List.replicate 16384 zeroPair else slotPairs (engineAt s k e) slot
    let ps := tilePairs s fmt a
    let r := mergeLines start ps
    setFlags (putSlot s k e slot (fld w 72 3) r.1) k q.task (r.2 ||| pairsNan ps))

/-- GMERGE (06 R175). -/
def execGmerge (k : ClusterId) (e : GSel) (s : State) : Host.Outcome State Fault Refusal :=
  .next (runEngine s k.val (engineCode (.g e)) 5 (fun s q => mayStartSlot true s k.val (engineCode (.g e)) q)
    (fun s q => mergeIn s k.val (engineCode (.g e)) q))

/-- The effect of GMPUSH: every element widened exactly to FP32 and rounded into MFMT (06 R177). -/
def pushTile (s : State) (k e : Nat) (q : QInstr) : State :=
  let w := q.word
  let fmt := fmtFld w 64
  let lane := fld w 68 1
  let a := padAddr k (lineAt q 40)
  let sa := padAddr k (extLine q 8)
  let m := taskMash s k q.task
  match mashFault m lane true false with
  | some kind => freeAddressFault s k e q.pc kind
  | none =>
    guarded s k e q ([{ addr := a, len := tileBytes fmt 4, write := false },
        { addr := sa, len := scaleBytes fmt 4, write := false }] ++
        (match m with
         | some m => pushRanges k m lane
         | none => [])) (fun s =>
      let rows := operandRows fmt (engineFetch s) a sa 4 3
      setFlags (mashPush s k q.task lane (rows.map (fun r => r.map (fun v => wordVal (widen v))))) k q.task
        (rowsNan rows ||| widenFlags rows))

/-- GMPUSH (06 R177). -/
def execGmpush (k : ClusterId) (e : GSel) (s : State) : Host.Outcome State Fault Refusal :=
  .next (runEngine s k.val (engineCode (.g e)) 6
    (fun s q => mayStartSlot true s k.val (engineCode (.g e)) q && mashReady (taskMash s k.val q.task) (fld q.word 68 1) true false)
    (fun s q => pushTile s k.val (engineCode (.g e)) q))

/-- The effect of GMPOP: func(z) of the top entry written in OFMT, turned where T is set; the entry leaves unless PEEK
is set (06 R178). -/
def popTile (s : State) (k e : Nat) (q : QInstr) : State :=
  let w := q.word
  let fmt := fmtFld w 64
  let lane := fld w 74 1
  let m := taskMash s k q.task
  match mashFault m lane false true with
  | some kind => freeAddressFault s k e q.pc kind
  | none =>
    let z := mashTop s k q.task lane
    let outs := z.map (fun r => r.map (fun v => forwardFn (fld w 68 4) (widen v)))
    let rows := outs.map (fun r => r.map (fun o => wordVal o.1))
    let rows := if bitFld w 73 then turned (Val.zero, Val.zero) 128 rows else rows
    let o := packTile fmt rows (padAddr k (lineAt q 40)) (padAddr k (extLine q 8)) 3 3
    guarded s k e q (writeRanges o.1 ++
        (match m with
         | some m => popRanges k m lane
         | none => [])) (fun s =>
      let s := mashTake s k q.task lane (bitFld w 72)
      let s := padWrites s k o.1
      setFlags s k q.task (outs.flatten.foldl (fun f x => f ||| x.2) flagNone ||| o.2 ||| rowsNan z ||| widenFlags z))

/-- GMPOP (06 R178). -/
def execGmpop (k : ClusterId) (e : GSel) (s : State) : Host.Outcome State Fault Refusal :=
  .next (runEngine s k.val (engineCode (.g e)) 7
    (fun s q => mayStartSlot true s k.val (engineCode (.g e)) q && mashReady (taskMash s k.val q.task) (fld q.word 74 1) false true)
    (fun s q => popTile s k.val (engineCode (.g e)) q))

/-- The effect of GALT: dX = D x W and dW = X x D turned, from one reading of D (06 R188). -/
def alternate (s : State) (k e : Nat) (q : QInstr) : State :=
  let w := q.word
  let x := q.extw
  let gd := bitFld w 111
  let desc : List Range := if gd then [{ addr := padAddr k (extLine q 36), len := 64, write := false }] else []
  guarded s k e q desc (fun s =>
    let d := operandOf s k gd (fmtFld w 88) (lineAt q 40) (extLine q 36) false
    let wt := operandOf s k false (fmtFld w 92) (lineAt q 64) (extLine q 60) false
    let xt := operandOf s k false (fmtFld x 32) (extLine q 8) (extLine q 84) (bitFld w 110)
    if startFormatOk gd false d wt && startFormatOk false false xt { d with turn := true } then
      let slot (on : Bool) (i : Nat) : List Range := if on then [] else [slotRange k e i]
      guarded s k e q (d.ranges 4 3 ++ wt.ranges 4 3 ++ xt.ranges 4 3 ++ slot (bitFld w 108) (fld w 96 3) ++
          slot (bitFld w 109) (fld w 102 3)) (fun s =>
        let dRows := d.rows s 4 3
        let dTurn := ({ d with turn := true } : Operand).rows s 4 3
        let wRows := wt.rows s 4 3
        let xRows := xt.rows s 4 3
        let s := accumulateTile s k e q.task (fld w 96 3) (fld w 99 3) (bitFld w 108)
          (d.fmt == 8#4 && wt.fmt == 8#4) dRows wRows 128
        accumulateTile s k e q.task (fld w 102 3) (fld w 105 3) (bitFld w 109)
          (d.fmt == 8#4 && xt.fmt == 8#4) xRows dTurn 128)
    else streamFault s k 3 e q.pc)

/-- GALT (06 R188, R189). -/
def execGalt (k : ClusterId) (e : GSel) (s : State) : Host.Outcome State Fault Refusal :=
  .next (runEngine s k.val (engineCode (.g e)) 8 (fun s q => mayStartProduct true s k.val (engineCode (.g e)) q)
    (fun s q => alternate s k.val (engineCode (.g e)) q))

/-! ### Transfers of the mash stack (06 R163) -/

/-- The place in the network of the oldest transfer of a lane. -/
def transferAt (s : State) (k d : Nat) (kind : BulkKind) : Option (Nat × BulkPacket) :=
  (s.noc.bulk.zipIdx.find? (fun p => p.1.kind == kind && p.1.k == k && p.1.ord == d)).map (fun p => (p.2, p.1))

/-- Both kinds of transfers started again after one has ended, within the limit of 2. -/
def restart (s : State) (k lane : Nat) (m : Mash) : State :=
  let n := startFetches (startSpills m lane 2) lane 2
  sendTransfers (setMash s k (clusterAt s k).resident n) k lane m n

/-- An entry at its home in the spill area: read at its ring slot with the check of each word, written to the home and, of
carry, to the partner's copy; the stack acknowledges it, and LO rises. -/
def spillThere (s : State) (k lane : Nat) (m : Mash) (d : Nat) (rest : List Nat) : State :=
  let from_ := ringAddr k m lane d
  let home := homeAddr m lane d
  let c := checkPad s k from_ (mashBytes m)
  match c.2 with
  | some key => dataErrorPad c.1 k noEngine key (key * 8 % padWindow / 64)
  | none =>
    let data := latestBytes c.1 from_ (mashBytes m)
    let s := writeBytes c.1 home data
    let s := if rideThrough s && (regionOf s home).isSome then writeCopy s 1 home data else s
    let s := restart s k lane { (m.setOuts lane rest).setLo lane (m.lo lane + 1) with spills := m.spills + 1 }
    modCluster s k (fun c => { c with spills := c.spills + 1 })

/-- The oldest spill of a lane acknowledged: the entry stands in its home, and LO rises. -/
def mashSpilled (s : State) (k lane : Nat) : State :=
  match (clusterAt s k).cur.mash with
  | none => s
  | some m =>
    match m.outs lane with
    | [] => s
    | d :: r =>
      match transferAt s k d (.spill lane) with
      | none => s
      | some p => deliverBulk s p.1 p.2 (fun s => some (spillThere s k lane m d r))

/-- An entry fetched from its home: read with the check of each word, and written into its ring slot; LO falls. Its lines go
back on a route that the home chooses. -/
def fetchThere (s : State) (k lane : Nat) (m : Mash) (d : Nat) (rest : List Nat) : Option State :=
  let from_ := homeAddr m lane d
  let home := homeUnit s (clusterHome s k) from_
  let write (s : State) : Option State :=
    let c := checkLines s from_ (mashLines m.mfmt)
    if !c.2 then some c.1
    else if !throughRoom c.1 (ringAddr k m lane d) 1 then none
    else
      let s := padWrite c.1 k (ringAddr k m lane d) (latestBytes c.1 from_ (mashBytes m))
      let s := restart s k lane { (m.setIns lane rest).setLo lane (m.lo lane - 1) with prefetches := m.prefetches + 1 }
      some (modCluster s k (fun c => { c with prefetches := c.prefetches + 1 }))
  match passage s home (clusterHome s k) (k % 8) with
  | .unreachable => some (routeFault s home (clusterHome s k))
  | .held _ => none
  | .through _ primary => write (countFallback s home primary)

/-- The oldest prefetch of a lane arrived: the entry stands in its ring slot, and LO falls. -/
def mashFetched (s : State) (k lane : Nat) : State :=
  match (clusterAt s k).cur.mash with
  | none => s
  | some m =>
    match m.ins lane with
    | [] => s
    | d :: r =>
      match transferAt s k d (.prefetch lane) with
      | none => s
      | some p => deliverBulk s p.1 p.2 (fun s => fetchThere s k lane m d r)

/-- MASH_SPILL_DONE. -/
def execMashSpillDone (k : ClusterId) (lane : Fin 2) (s : State) : Host.Outcome State Fault Refusal :=
  .next (if jobRunning s && !s.tick.recovery.active then mashSpilled s k.val lane.val else s)

/-- MASH_PREFETCH_ARRIVAL. -/
def execMashPrefetchArrival (k : ClusterId) (lane : Fin 2) (s : State) : Host.Outcome State Fault Refusal :=
  .next (if jobRunning s && !s.tick.recovery.active then mashFetched s k.val lane.val else s)

end Sys2Proof.Machine
end

