-- ==== Sys2Proof/Machine/Keccak.lean ====
section
/-!
DEFINITION. SHAKE256 (FIPS 202), which the samplers and the digests of the images use (spec 00 Table 0.7; 12 R337;
17 R436). PRESUMED: the standard is named by the spec and is not part of it.
-/
namespace Sys2Proof.Machine
open Sys2Proof

/-- Rotation of a lane to the left. -/
def rotl (x : DWord) (n : Nat) : DWord := x.rotateLeft n

/-- The walk over the lanes by which rho gives the offsets: from lane (x, y) to lane (y, 2x + 3y); step t turns its lane
by (t + 1)(t + 2)/2 places. Each entry is a lane's index x + 5y and its offset. -/
def rhoWalk (x y t : Nat) : Nat → List (Nat × Nat)
  | 0 => []
  | n + 1 => (x + 5 * y, (t + 1) * (t + 2) / 2 % 64) :: rhoWalk y ((2 * x + 3 * y) % 5) (t + 1) n

/-- The offset of each lane; lane 0 is not on the walk and does not turn. -/
def rhoOffsets : List Nat :=
  let walk := rhoWalk 1 0 0 24
  (List.range 25).map (fun i => ((walk.find? (fun e => e.1 == i)).map Prod.snd).getD 0)

/-- The shift register of iota, with the polynomial x^8 + x^6 + x^5 + x^4 + 1. -/
def iotaStep (r : Nat) : Nat := if r < 128 then 2 * r else (2 * r) ^^^ 0x171

/-- The constant of one round: bit 2^j - 1 is the register's low bit at its j-th step of the round. -/
def iotaConst : Nat → Nat → Nat → Nat
  | _, _, 0 => 0
  | r, j, n + 1 => r % 2 * 2 ^ (2 ^ j - 1) + iotaConst (iotaStep r) (j + 1) n

/-- The constants of n rounds, from the register's state at the first of them; a round takes seven steps. -/
def iotaConsts (r : Nat) : Nat → List DWord
  | 0 => []
  | n + 1 => BitVec.ofNat 64 (iotaConst r 0 7) :: iotaConsts (Nat.repeat iotaStep 7 r) n

/-- The round constants. -/
def keccakConsts : List DWord := iotaConsts 1 24

/-- A lane of a state. -/
def lane (a : List DWord) (i : Nat) : DWord := a.getD i 0

/-- One round. -/
def keccakRound (a : List DWord) (rc : DWord) : List DWord :=
  let c := (List.range 5).map (fun x => lane a x ^^^ lane a (x + 5) ^^^ lane a (x + 10) ^^^ lane a (x + 15) ^^^ lane a (x + 20))
  let d := (List.range 5).map (fun x => lane c ((x + 4) % 5) ^^^ rotl (lane c ((x + 1) % 5)) 1)
  let t := (List.range 25).map (fun i => rotl (lane a i ^^^ lane d (i % 5)) (rhoOffsets.getD i 0))
  -- pi: lane (y, 2x + 3y) takes lane (x, y); lane x + 5y therefore comes from x' = (x + 3y) mod 5, y' = x
  let b := (List.range 25).map (fun i => lane t ((i % 5 + 3 * (i / 5)) % 5 + 5 * (i % 5)))
  let n := (List.range 25).map (fun i =>
    let x := i % 5
    let y := 5 * (i / 5)
    lane b i ^^^ (~~~(lane b ((x + 1) % 5 + y)) &&& lane b ((x + 2) % 5 + y)))
  match n with
  | [] => []
  | h :: r => (h ^^^ rc) :: r

/-- The permutation of 24 rounds. -/
def keccakF (a : List DWord) : List DWord := keccakConsts.foldl keccakRound a

/-- The lanes of a block of bytes. -/
def blockLanes (bs : List Byte) : List DWord :=
  (List.range 25).map (fun i => BitVec.ofNat 64 (leNat ((bs.drop (8 * i)).take 8)))

/-- The rate of SHAKE256 in bytes. -/
def shakeRate : Nat := 136

/-- A message padded to whole blocks: 1Fh, zeros, and 80h on the last byte. -/
def shakePad (m : List Byte) : List Byte :=
  let z := shakeRate - 1 - m.length % shakeRate
  if z = 0 then m ++ [0x9F#8] else m ++ [0x1F#8] ++ List.replicate (z - 1) 0 ++ [0x80#8]

/-- A block absorbed. -/
def absorb (a : List DWord) (b : List Byte) : List DWord := keccakF (List.zipWith (· ^^^ ·) a (blockLanes b))

/-- Output bytes squeezed, one block for each unit of fuel. -/
def squeeze (a : List DWord) : Nat → List Byte
  | 0 => []
  | n + 1 => ((a.take 17).flatMap (fun l => leBytes 8 l.toNat)) ++ squeeze (keccakF a) n

/-- SHAKE256 of a message with n output bytes. -/
def shake256 (m : List Byte) (n : Nat) : List Byte :=
  let a := (chunksOf shakeRate (shakePad m)).foldl absorb (List.replicate 25 0)
  (squeeze a (ceilDiv n shakeRate)).take n

end Sys2Proof.Machine
end

