-- ==== Sys2Proof/Machine/Ed448.lean ====
section
/-!
DEFINITION. Ed448 (RFC 8032), with which every signature of the module is made and verified (spec 17 R437). PRESUMED: the
standard is named by the spec and is not part of it. The equation of a verification is the one with the cofactor (log
entry 8).
-/
namespace Sys2Proof.Machine
open Sys2Proof

/-! ### The curve: x² + y² = 1 + d x² y² over p = 2^448 - 2^224 - 1, with d = -39081 -/

def edP : Nat := 2 ^ 448 - 2 ^ 224 - 1
def edD : Nat := edP - 39081
/-- The order of the base point. -/
def edL : Nat := 2 ^ 446 - 13818066809895115352007386748515426880336692474882178609894547503885

/-- A point in projective coordinates. -/
structure EdPoint where
  x : Nat
  y : Nat
  z : Nat
deriving DecidableEq, Repr

def edBase : EdPoint where
  x := 224580040295924300187604334099896036246789641632564134246125461686950415467406032909029192869357953282578032075146446173674602635247710
  y := 298819210078481492676017930443930673437544040154080242095928241372331506189835876003536878655418784733982303233503462500531545062832660
  z := 1

/-- The neutral point. -/
def edZero : EdPoint := { x := 0, y := 1, z := 1 }

/-- The sum of two points; the formula holds for every pair. -/
def edAdd (p q : EdPoint) : EdPoint :=
  let a := p.z * q.z % edP
  let b := a * a % edP
  let c := p.x * q.x % edP
  let d := p.y * q.y % edP
  let e := edD * (c * d % edP) % edP
  let f := (b + edP - e) % edP
  let g := (b + e) % edP
  let h := (p.x + p.y) * (q.x + q.y) % edP
  { x := a * f % edP * ((h + 2 * edP - c - d) % edP) % edP
    y := a * g % edP * ((d + edP - c) % edP) % edP
    z := f * g % edP }

/-- n times a point, n below 2^bits. -/
def edMul (n bits : Nat) (p : EdPoint) : EdPoint :=
  (List.range bits).foldl (fun r i =>
    let s := edAdd r r
    if n.testBit (bits - 1 - i) then edAdd s p else s) edZero

/-- Whether two points are the same. -/
def edSame (p q : EdPoint) : Bool :=
  p.x * q.z % edP == q.x * p.z % edP && p.y * q.z % edP == q.y * p.z % edP

/-- A power modulo p, by the exponent's bits. -/
def edPow (b n bits : Nat) : Nat :=
  (List.range bits).foldl (fun r i =>
    let s := r * r % edP
    if n.testBit (bits - 1 - i) then s * b % edP else s) 1

/-! ### Encoding of points: 57 bytes, y with the low bit of x on top -/

def edEncode (p : EdPoint) : List Byte :=
  let zi := edPow p.z (edP - 2) 448
  let x := p.x * zi % edP
  let y := p.y * zi % edP
  leBytes 57 (y + (x % 2) * 2 ^ 455)

def edDecode (bs : List Byte) : Option EdPoint :=
  let v := leNat bs
  let y := v % 2 ^ 455
  let sign := v / 2 ^ 455
  if bs.length ≠ 57 || edP ≤ y then none
  else
    let u := (y * y + edP - 1) % edP
    let w := (edD * (y * y % edP) + edP - 1) % edP
    let u3w := u * u % edP * u % edP * w % edP
    let x := u3w * edPow (u3w * (u * u % edP) % edP * (w * w % edP) % edP) ((edP - 3) / 4) 448 % edP
    if w * (x * x % edP) % edP ≠ u || (x == 0 && sign == 1) then none
    else some { x := if x % 2 = sign then x else edP - x, y := y, z := 1 }

/-! ### Signatures -/

/-- The prefix of every hash: pure Ed448 with a context. -/
def edDom (ctx : List Byte) : List Byte :=
  [0x53, 0x69, 0x67, 0x45, 0x64, 0x34, 0x34, 0x38, 0, BitVec.ofNat 8 ctx.length] ++ ctx

/-- The hash of a signature as a number modulo the order. -/
def edHash (ctx bs : List Byte) : Nat := leNat (shake256 (edDom ctx ++ bs) 114) % edL

/-- The scalar and the prefix of a private key. -/
def edSecret (key : List Byte) : Nat × List Byte :=
  let h := shake256 key 114
  (leNat (h.take 57) % 2 ^ 447 / 4 * 4 + 2 ^ 447, h.drop 57)

/-- The public key of a private key. -/
def ed448Public (key : List Byte) : List Byte := edEncode (edMul (edSecret key).1 448 edBase)

/-- The signature of a message by a private key, in a context. -/
def ed448Sign (key ctx msg : List Byte) : List Byte :=
  let s := edSecret key
  let a := ed448Public key
  let r := edHash ctx (s.2 ++ msg)
  let rp := edEncode (edMul r 448 edBase)
  rp ++ leBytes 57 ((r + edHash ctx (rp ++ a ++ msg) * s.1) % edL)

/-- Whether a signature of a message is valid under a public key and a context. -/
def ed448Verify (key ctx msg sig : List Byte) : Bool :=
  let s := leNat (sig.drop 57)
  match edDecode key, edDecode (sig.take 57) with
  | some a, some r =>
    sig.length == 114 && decide (s < edL) &&
    edSame (edMul (4 * s) 448 edBase)
      (edAdd (edMul 4 3 r) (edMul (4 * edHash ctx (sig.take 57 ++ key ++ msg)) 448 a))
  | _, _ => false

end Sys2Proof.Machine
end

