-- ==== Sys2Proof/Machine/Links.lean ====
section
/-!
DEFINITION. Seam links in service: corrections and retries, lane failures, narrowing, retirement and loss (spec 10
R283 to R287; 15 R396, R397, R405).
-/
namespace Sys2Proof.Machine
open Sys2Proof

/-- The unit at the sending end of a link key. -/
def keyUnit (key : Nat) : UnitId := unitId (key / 16)

/-- Lanes of a direction, spares included. -/
def seamLanes : Nat := 68
/-- Healthy lanes. -/
def LinkRec.healthy (r : LinkRec) : Nat := seamLanes - r.failed.length

/-- The narrow set of a direction: 32 of its healthy lanes, in an order of choice that the spec leaves open. -/
def narrowSet (key : Nat) (failed : List Nat) : List Nat :=
  let put (l : Nat) (acc : List Nat) : List Nat :=
    acc.takeWhile (fun x => Config.laneOrder key x ≤ Config.laneOrder key l) ++ [l] ++
      acc.dropWhile (fun x => Config.laneOrder key x ≤ Config.laneOrder key l)
  (((List.range seamLanes).filter (fun l => !failed.contains l)).foldl (fun acc l => put l acc) []).take 32
/-- Healthy lanes of the narrow set. -/
def LinkRec.drainLanes (r : LinkRec) : Nat := (r.narrow.filter (fun l => !r.failed.contains l)).length

/-- A direction marked, as its own end knows at once; the other units learn it by SEAM_HEALTH_UPDATE. -/
def markLink (s : State) (key : Nat) (st : LinkState) : State :=
  takeUpdate (modLink s key (fun r => { r with state := st, paused := false, inRow := 0, traced := [] })) (key / 16) key

/-- A direction lost (10 R287): retired at once, with the health update; fault 09h. -/
def loseLink (s : State) (key : Nat) : State :=
  let s := noteRetired (markLink s key .retired) 2 (unitNumber (keyUnit key)) (key % 16)
  raise s (keyUnit key) 9 noEngine 0 (key % 16) none

/-- Step 1 of a retirement (10 Table 10.7): the direction drains on lanes of its narrow set. -/
def closeLink (s : State) (key : Nat) : State :=
  markLink (modLink s key (fun r => { r with narrow := if r.narrow.isEmpty then narrowSet key r.failed else r.narrow })) key .closed

/-- A lane fails (10 Table 10.6); a direction that drains on fewer than 16 healthy lanes of its narrow set is lost (10 R286). -/
def laneFails (s : State) (key lane : Nat) : State :=
  let r := linkAt s key
  if r.failed.contains lane || r.state == .down || r.state == .retired then s
  else
    let s := modLink s key (fun r => { r with failed := setInsert lane r.failed, inRow := 0, traced := [] })
    let s := retire s (keyUnit key) 1 (key % 16 + 16 * lane) actNone noEngine 0
    match r.state with
    | .full =>
      if r.spares < 4 then modLink s key (fun r => { r with spares := r.spares + 1, paused := true })
      else modLink s key (fun r => { r with state := .narrow, narrow := narrowSet key r.failed, paused := true })
    | .narrow => closeLink s key
    | _ => if (linkAt s key).drainLanes < 16 then loseLink s key else s

/-- SEAM_LANE_FAILURE (10 R285): lock lost, or the haze threshold passed. -/
def execSeamLaneFailure (d : SeamDir) (lane : Fin 68) (s : State) : Host.Outcome State Fault Refusal :=
  .next (laneFails s (dirKey d) lane.val)

/-- A flit with an uncorrectable word: a retry, traced to a lane or not; three in a row fail a lane, eight failed
retries of one flit lose the direction. -/
def badFlit (s : State) (key : Nat) (lane : Option Nat) : State :=
  let r := linkAt s key
  let traced := match lane with
    | some l => lastOf 3 (r.traced ++ [l])
    | none => []
  let n := r.inRow + 1
  let s := modLink s key (fun r => { r with retries := r.retries + 1, inRow := n, traced := traced })
  if 8 < n then loseLink s key
  else match lane with
    | some l => if traced = [l, l, l] then laneFails s key l else s
    | none => s

/-- A flit received good, with its corrected words counted against their lane: a retry that it completes is a haze event. -/
def goodFlit (s : State) (key fixed : Nat) (lane : Option Nat) : State :=
  let r := linkAt s key
  let s := modLink s key (fun r => { r with
    corrected := r.corrected + BitVec.ofNat 32 fixed
    laneFixed := match lane with
      | some l => if fixed = 0 then r.laneFixed else tset r.laneFixed l (tget 0 r.laneFixed l + fixed)
      | none => r.laneFixed
    inRow := 0 })
  let s := if fixed = 0 then s else haze s fixed
  if 0 < r.inRow then haze s 1 else s

/-- SEAM_FLIT_RECEIVED (10 R283): the upset masks of its words, and the lane to which they are traced. -/
def execSeamFlitReceived (d : SeamDir) (upsets : List (BitVec 72)) (lane : Option (Fin 68)) (s : State) :
    Host.Outcome State Fault Refusal :=
  let key := dirKey d
  let r := linkAt s key
  if r.state == .down || r.state == .retired then .next s
  else
    let ks := upsets.map upsetKind
    if ks.contains .double then .next (badFlit s key (lane.map Fin.val))
    else .next (goodFlit s key (ks.filter (fun k => k == .single)).length (lane.map Fin.val))

/-- LINK_PAUSE_END (10 R285). -/
def execLinkPauseEnd (d : SeamDir) (s : State) : Host.Outcome State Fault Refusal :=
  .next (if (linkAt s (dirKey d)).paused then modLink s (dirKey d) (fun r => { r with paused := false }) else s)

/-- The number of a unit among those that hold a health mask; a maltster and the module hold none. -/
def maskUnit : UnitId → Option Nat
  | .site n => some n.val
  | .rim n => some (72 + n.val)
  | .maltster _ => none
  | .module => none

/-- SEAM_HEALTH_UPDATE (10 R286): a unit learns the state of a direction. -/
def execSeamHealthUpdate (u : UnitId) (d : SeamDir) (s : State) : Host.Outcome State Fault Refusal :=
  match maskUnit u with
  | none => .next s
  | some n => .next (takeUpdate s n (dirKey d))

/-- SEAM_DRAIN_COMPLETE (10 Table 10.7, step 4). -/
def execSeamDrainComplete (d : SeamDir) (s : State) : Host.Outcome State Fault Refusal :=
  let key := dirKey d
  .next (if (linkAt s key).state == .closed then
    retire (markLink s key .retired) (keyUnit key) 2 (key % 16) actNone noEngine 0 else s)

/-- SEAM_DRAIN_TIMEOUT (10 R286): the drain has not ended within 10 µs. -/
def execSeamDrainTimeout (d : SeamDir) (s : State) : Host.Outcome State Fault Refusal :=
  .next (if (linkAt s (dirKey d)).state == .closed then loseLink s (dirKey d) else s)

end Sys2Proof.Machine
end

