-- ==== Sys2Proof/Machine/FabricPorts.lean ====
section
/-!
DEFINITION. Fabric ports in service: codewords, retry, lane failures, retirement and loss, health updates, and received
packets (spec 11 R295 to R319; 02 R59, R60; 15 R401, R405).
-/
namespace Sys2Proof.Machine
open Sys2Proof

/-! ### Segments and retirement (11 R299 to R301, R310) -/

/-- The segment of a module's port on the rings of the job: the higher-numbered port of a rim die faces the next
member (11 R306). -/
def portSegments (s : State) (mod p : Nat) : List (Nat × Nat) :=
  match s.job.plan with
  | none => []
  | some pl => pl.rings.flatMap (fun r => (r.members.zipIdx.filter (fun m => m.1.1 == mod && m.1.2 == portRim p)).map (fun m =>
      (r.number, if p % 2 = 1 then m.2 else (m.2 + r.members.length - 1) % r.members.length)))

/-- The ports of this module on a segment. -/
def segmentPorts (s : State) (g : Nat × Nat) : List Nat :=
  (List.range 32).filter (fun p => (portSegments s (myModule s) p).contains g)

/-- Segments closed, or retired: the fabric health mask. -/
def markSegments (s : State) (gs : List (Nat × Nat)) (retired : Bool) : State :=
  let f := s.fab
  if retired then
    { s with fab := { f with sick := f.sick ++ gs.filter (fun g => !f.sick.contains g)
                             closedSeg := f.closedSeg.filter (fun g => !gs.contains g) } }
  else
    { s with fab := { f with closedSeg := f.closedSeg ++ gs.filter (fun g => !f.closedSeg.contains g) } }

/-- The rim die of a port, as a unit. -/
def portUnit (p : Nat) : UnitId := unitId (72 + portRim p)

/-- The other modules of the job: those of its rings and of its tick domain. -/
def jobModules (s : State) : List Nat :=
  match s.job.plan with
  | none => []
  | some pl =>
    (pl.members ++ pl.rings.flatMap (fun r => r.members.map Prod.fst)).foldl
      (fun a m => if m = myModule s || a.contains m then a else a ++ [m]) []

/-- A fabric health update sent to every module of the job (11 R300, R310): a management request with ORD set (16 R434), which
waits for the answers of the earlier ones to its module. What it holds beyond the common header the spec does not give: its
line is free (log entry 73). -/
def sendHealth (s : State) (p : Nat) (retired : Bool) : State :=
  (jobModules s).foldl (fun a m =>
    let d := drawNat a
    let k : FabPacket := { header := mkHeader (headerLow 5 true false false 0 0 (myModule a) m 0 0) 0, payload := leBytes 64 d.1 }
    let sp : SentPacket := { bareSent d.2 k with k := 2000 }
    let a := { d.2 with noc := { d.2.noc with nextId := d.2.noc.nextId + 1 }, fab := { d.2.fab with sent := d.2.fab.sent ++ [sp] } }
    enterRim a sp k) (emitFab s (.health p retired))

/-- A port retired: its status, its bit of 3081h:03h, the mask and the update to every module of the job. What was queued for
it is gone. -/
def retirePort (s : State) (p : Nat) : State :=
  let s := modPort s p (fun r => { r with
    state := .retired, active := 0, buffer := [], discard := false, retrying := false, rxWords := [], ownXoff := 0 })
  let s := { s with fab := { s.fab with
    retired := s.fab.retired ||| BitVec.ofNat 32 (2 ^ p), egress := s.fab.egress.filter (fun x => x.port != some p) } }
  sendHealth (markSegments s (portSegments s (myModule s) p) true) p true

/-- A port lost (11 R301): what it held is discarded; fault 0Ah. -/
def losePort (s : State) (p : Nat) : State :=
  let s := noteRetired (retirePort s p) 11 (unitNumber (portUnit p)) p
  raise s (portUnit p) 0x0A noEngine 0 p none

/-- Step 1 of a port's retirement (11 Table 11.4): what is queued for the port drains. The maltster of its half learns of it,
as of every state of a port, from the port's record. -/
def closePort (s : State) (p : Nat) : State :=
  sendHealth (markSegments (modPort s p (fun r => { r with state := .closed })) (portSegments s (myModule s) p) false) p false

/-- The number of active lanes of a port. -/
def activeLanes (r : PortRec) : Nat := (laneList r).length

/-- Unacknowledged codewords sent again, dealt to the active lanes. -/
def resendAll (s : State) (p : Nat) : State := (portAt s p).buffer.foldl (fun a c => sendCodeword a p c) s

/-- A lane fails (11 R299): it leaves the active set, and what is unacknowledged is sent again. With no lane left and
codewords unacknowledged the port is lost; below the lane floor it retires. -/
def portLaneFails (s : State) (p lane : Nat) : State :=
  let r := portAt s p
  if !(r.state == .up || r.state == .closed) || !r.active.getLsbD lane then s
  else
    let bit8 : BitVec 8 := BitVec.ofNat 8 (2 ^ lane)
    let s := modPort s p (fun r => { r with active := r.active &&& ~~~bit8, failed := r.failed ||| bit8
                                            badInRow := r.badInRow.filter (fun l => l != lane) })
    let s := retire s (portUnit p) 10 (p + 32 * lane) actNone noEngine 0
    let n := activeLanes (portAt s p)
    if n = 0 && !(portAt s p).buffer.isEmpty then losePort s p
    else
      let s := resendAll s p
      if r.state == .up && n < s.fab.laneFloor.toNat then closePort s p else s

/-- FABRIC_LANE_FAILURE (11 R299). -/
def execFabricLaneFailure (p : PortId) (lane : Fin 8) (s : State) : Host.Outcome State Fault Refusal :=
  .next (portLaneFails s p.val lane.val)

/-- PORT_DRAIN_COMPLETE (11 Table 11.4, step 4): held packets leave on the routes now chosen. -/
def execPortDrainComplete (p : PortId) (s : State) : Host.Outcome State Fault Refusal :=
  .next (if (portAt s p.val).state == .closed then
    flushEgress (retire (retirePort s p.val) (portUnit p.val) 11 p.val actNone noEngine 0) else s)

/-- PORT_DRAIN_TIMEOUT (11 R301): step 3 has not ended within 20 µs. -/
def execPortDrainTimeout (p : PortId) (s : State) : Host.Outcome State Fault Refusal :=
  .next (if (portAt s p.val).state == .closed then losePort s p.val else s)

/-- FABRIC_HEALTH_UPDATE (11 R310): another module's port closes or retires. This module's port at the other end of
the segment does the same, since a port retires in both directions (11 R300). -/
def execFabricHealthUpdate (smod : BitVec 12) (port : PortId) (retired : Bool) (s : State) :
    Host.Outcome State Fault Refusal :=
  let s := { s with fab := { s.fab with updates := s.fab.updates + 1 } }
  let gs := portSegments s smod.toNat port.val
  let mine := gs.flatMap (segmentPorts s)
  let s := markSegments s gs retired
  let s := mine.foldl (fun a p =>
    let st := (portAt a p).state
    if retired then
      (if st == .up || st == .closed then retire (retirePort a p) (portUnit p) 11 p actNone noEngine 0 else a)
    else if st == .up then modPort a p (fun r => { r with state := .closed }) else a) s
  .next (flushEgress s)

/-! ### Codewords (11 R295 to R297) -/

/-- A field of the control field (11 Table 11.2). -/
def cfld (c : Codeword) (lo n : Nat) : Nat := bitsAt c.control.toNat lo n

/-- The kinds of the words of a codeword. -/
def wordKinds (c : Codeword) : List Checked := c.words.map checkCodeword
/-- Whether a codeword is bad. -/
def codewordBad (c : Codeword) : Bool := !c.rsOk || (wordKinds c).contains .bad
/-- Words that the check corrects. -/
def fixedWords (c : Codeword) : Nat :=
  ((wordKinds c).filter (fun k => match k with
    | .corrected _ => true
    | _ => false)).length

/-- A bad codeword: it is discarded with the data codewords behind it, and NAK is sent; the third in a row on a lane fails the
lane. While the port waits for a resend, a bad data codeword that bears the sequence number awaited is a bad resend of it: the
eighth in a row loses the port. -/
def badCodeword (s : State) (p : Nat) (c : Codeword) : State :=
  let r := portAt s p
  let lane := c.lane.val
  let again := r.discard && cfld c 53 2 = 0 && BitVec.ofNat 12 (cfld c 0 12) == r.rxSeq + 1
  let s := modPort s p (fun r => { r with
    badCw := r.badCw + 1, discard := true, badInRow := r.badInRow ++ [lane]
    resends := if !r.discard then 0 else if again then r.resends + 1 else r.resends })
  let s := sendIdle s p true
  if 8 ≤ (portAt s p).resends then losePort s p
  else if 3 ≤ ((portAt s p).badInRow.filter (fun l => l == lane)).length then portLaneFails s p lane
  else s

/-- The buffer after an acknowledgement of a sequence number. -/
def ackedBuffer (b : List TxCodeword) (seq : BitVec 12) : List TxCodeword :=
  if b.any (fun c => c.seq == seq) then b.drop (b.findIdx (fun c => c.seq == seq) + 1) else b

/-- What the control field of a good codeword does: ACK frees the retry buffer and ends a retry, NAK sends again, XOFF
is a level. -/
def takeControl (s : State) (p : Nat) (c : Codeword) : State :=
  let r := portAt s p
  let nak := bitAt c.control.toNat 25
  let buf := if bitAt c.control.toNat 24 then ackedBuffer r.buffer (BitVec.ofNat 12 (cfld c 12 12)) else r.buffer
  let done := r.retrying && !nak && buf.length < r.buffer.length
  let s := modPort s p (fun r => { r with
    buffer := buf, xoff := BitVec.ofNat 20 (cfld c 26 20)
    retrying := (r.retrying && !done) || nak
    retries := if done then r.retries + 1 else r.retries })
  if nak then resendAll s p else s

/-- The data words of a good codeword: each as it came, or corrected. -/
def dataWords (c : Codeword) : List DWord :=
  (wordKinds c).map (fun k => match k with
    | .good d => d
    | .corrected d => d
    | .bad => 0)

/-- The words of a packet's payload, by its header: a type with a payload has LINES + 1 lines (11 Table 11.6, R303). -/
def payloadWords (h : BitVec 128) : Nat :=
  match hType h with
  | 0 => 8 * (hLines h + 1)
  | 1 => 8 * (hLines h + 1)
  | 2 => 8 * (hLines h + 1)
  | 5 => 8 * (hLines h + 1)
  | 6 => 8 * (hLines h + 1)
  | 7 => 8
  | _ => 0

/-- The whole packets at the head of a stream of words, which idle words separate, and the words of the packet that is not
complete (11 R295); the fuel is the number of words. -/
def parseWords : Nat → List DWord → List FabPacket × List DWord
  | 0, ws => ([], ws)
  | n + 1, ws =>
    match ws with
    | [] => ([], [])
    | a :: r =>
      if a = idleWord then parseWords n r
      else
        match r with
        | [] => ([], ws)
        | b :: r =>
          let h : BitVec 128 := b ++ a
          let m := payloadWords h
          if r.length < m then ([], ws)
          else
            let x := parseWords n (r.drop m)
            ({ header := h, payload := pairBytes (r.take m) } :: x.1, x.2)

/-- Bytes of a receive buffer: the packets of a channel that have arrived at a port, and those of the next frame that it holds
(02 Table 2.7). -/
def occupied (s : State) (p v : Nat) : Nat :=
  ((portAt s p).arrived ++ (s.fab.held.filter (fun x => x.1 == p)).map Prod.snd).foldl
    (fun n k => if channelOf k = v then n + packetBytes k else n) 0
/-- Bytes of the buffer of a channel (11 Table 11.10). -/
def bufferSize (v : Nat) : Nat := if v < 4 then 131072 else 65536
/-- The occupancy above which a channel is held off, and that at which it is on again. -/
def xoffAbove (v : Nat) : Nat := if v < 4 then 65536 else 8192
def xonAt (v : Nat) : Nat := if v < 4 then 49152 else 4096

/-- The channels that a port holds off, by their occupancy (11 R312). -/
def judgeXoff (s : State) (p : Nat) : State :=
  let step (a : BitVec 20) (v : Nat) : BitVec 20 :=
    let n := occupied s p v
    let b : BitVec 20 := BitVec.ofNat 20 (2 ^ v)
    if xoffAbove v < n then a ||| b else if n ≤ xonAt v then a &&& ~~~b else a
  modPort s p (fun r => { r with ownXoff := (List.range 20).foldl step r.ownXoff })

/-- A data codeword: the next in order is taken, and the packets that it completes stand in the receive buffers; one that
completes a retry is a haze event; others are discarded. -/
def takeData (s : State) (p : Nat) (c : Codeword) : State :=
  let r := portAt s p
  let seq : BitVec 12 := BitVec.ofNat 12 (cfld c 0 12)
  if seq = r.rxSeq + 1 then
    let s := if r.discard then haze s 1 else s
    let ws := if r.rxWords.isEmpty then (dataWords c).drop (cfld c 46 7) else r.rxWords ++ dataWords c
    let x := parseWords ws.length ws
    let s := modPort s p (fun r => { r with
      rxSeq := seq, discard := false, resends := 0, rxWords := x.2, arrived := r.arrived ++ x.1 })
    sendIdle (judgeXoff s p) p false
  else s

/-- FABRIC_CODEWORD_RECEIVED (11 R297). A packet that its codewords complete is taken in by FABRIC_PACKET_RECEIVED or by
the commands of the management class. -/
def execFabricCodewordReceived (p : PortId) (c : Codeword) (s : State) : Host.Outcome State Fault Refusal :=
  let r := portAt s p.val
  if !(r.state == .up || r.state == .closed) || !r.active.getLsbD c.lane.val then .next s
  else
    let fixed := if c.rsOk then fixedWords c else 0
    let s := modPort s p.val (fun r => { r with
      symbols := r.symbols + BitVec.ofNat 64 c.corrected, corrected := r.corrected + BitVec.ofNat 32 fixed })
    let s := if c.corrected + fixed = 0 then s else haze s (c.corrected + fixed)
    if codewordBad c then .next (badCodeword s p.val c)
    else
      let s := modPort s p.val (fun r => { r with badInRow := r.badInRow.filter (fun l => l != c.lane.val) })
      let s := takeControl s p.val c
      .next (flushEgress (if cfld c 53 2 = 0 then takeData s p.val c else s))

/-! ### Packets received (11 R305, R315 to R319; 02 R59, R60) -/

/-- A packet discarded on a port (11 R305). -/
def discardPacket (s : State) (p : Nat) : State := modPort s p (fun r => { r with discarded := r.discarded + 1 })

/-- The lines of a packet: addresses and data. -/
def packetLines (k : FabPacket) : List (Nat × List Byte) :=
  (List.range (hLines k.header + 1)).map (fun i => (64 * (hAddr k.header + i), (k.payload.drop (64 * i)).take 64))

/-- Whether a line may be written or merged by a packet. -/
def lineOk (s : State) (merge : Bool) (a : Nat) : Bool :=
  addrOk s a && !inStream s a 64 && (!merge || ((regionOf s a).isNone && (panelTree s a).isNone))

/-- A packet entered among those whose lines are on their way to their homes, with the number of panel packets it takes. -/
def addInbound (s : State) (p : Nat) (h : BitVec 128) (left : Nat) : Nat × State :=
  (s.noc.nextId, { s with
    noc := { s.noc with nextId := s.noc.nextId + 1 }
    fab := { s.fab with inbound := s.fab.inbound ++ [{ id := s.noc.nextId, port := p, header := h, left := left, err := false }] } })

/-- A write or merge packet at its ingress rim die: translated, and its lines sent to their home as panel packets of up to 4
lines; it is acknowledged once they all are. An illegal line writes nothing, and ERR is returned (11 R305, R315). -/
def takeWrite (s : State) (p : Nat) (k : FabPacket) (merge : Bool) : State :=
  let h := k.header
  let ls := packetLines k
  if ls.all (fun l => lineOk s merge l.1) then
    let parts := chunksOf 4 ls
    let u := 72 + portRim p
    let x := addInbound s p h parts.length
    parts.foldl (fun a part =>
      let addr := (part.headD (0, [])).1
      sendBulk a u (homeUnit a u addr) (homeLocal addr) (fun w =>
        { kind := if merge then .merge else .write, k := 1024 + x.1, e := 15, task := 0, ord := 0, addr := addr
          lines := part.length, data := part.flatMap Prod.snd, relay := none, way := w })) x.2
  else sendBare s (ackPacket s h (hScl h) (hSeng h) true)

/-- The child that a contribution comes from: a node of another module, by the circuit to its parent, or a cluster. -/
def contribChild (t : Tree) (h : BitVec 128) : Option Nat :=
  if hSeng h = 15 then
    t.nodes.findIdx? (fun n => n.host == hSmod h && n.circ == hCirc h)
  else if t.contrib.contains (hScl h, hSmod h, hCirc h) then some (contribCode t (hScl h) (hSmod h))
  else none

/-- The fabric tree of a contribution: by its destination module and the range in which its address lies (11 R318). -/
def contribTreeOf (s : State) (h : BitVec 128) : Option Tree :=
  match s.job.plan with
  | some j => j.fabTrees.find? (fun t => inTree t (64 * hAddr h) && (t.nodes.getD 0 noNode).host == hDmod h)
  | none => none

/-- A contribution at its ingress rim die: one for a line of this module that may not be merged returns ERR; one of no tree or
contributor is discarded; the others go to the rim die of their node (11 R305, R318, R319, R325). -/
def takeContribution (s : State) (p : Nat) (k : FabPacket) : State :=
  let h := k.header
  let ls := packetLines k
  let bad (l : Nat × List Byte) : Bool := !addrOk s l.1 || inStream s l.1 64 || (regionOf s l.1).isSome
  if hDmod h == myModule s && ls.any bad then sendBare s (ackPacket s h (hScl h) (hSeng h) true)
  else match contribTreeOf s h with
    | none => discardPacket s p
    | some t =>
      match contribChild t h with
      | none => discardPacket s p
      | some child =>
        let x := addInbound s p h ls.length
        ls.foldl (fun a l => sendBulk a (72 + portRim p) (parentUnit a (16 + t.number) child) 0 (fun w =>
          { kind := .tree (16 + t.number) child [(1024 + x.1, 0, 0)], k := 1024 + x.1, e := 15, task := 0, ord := 0
            addr := l.1, lines := 1, data := l.2, relay := none, way := w })) x.2

/-- A rate cut by an echo (11 R314): at most one in 2 µs. -/
def takeEcho (s : State) (c : Nat) (t : Time) : State :=
  let s := { s with fab := { s.fab with echoSeen := setInsert c s.fab.echoSeen } }
  let due := match tfind s.fab.lastCut c with
    | none => true
    | some u => u + 8000 ≤ t
  if due then
    let r := rateOf s c
    { s with fab := { s.fab with rates := tset s.fab.rates c (max 1 (r - ceilDiv r 8)), lastCut := tset s.fab.lastCut c t } }
  else s

/-- Flags of merges on another module, whose operands this module does not know: free ones of those that a merge can set, in
the clusters that issued the MADDs (08 R218, log entry 27). -/
def farMergeFlags (s : State) (acks : List (Nat × Nat × Nat)) : State :=
  acks.foldl (fun a w =>
    if w.1 < 512 then
      let d := drawNat a
      setFlags d.2 w.1 (w.2.1 / 16) (BitVec.ofNat 16 d.1 &&& (flagInvalid ||| flagOverflow))
    else a) s

/-- An acknowledgement (11 R315): the packet it names is outstanding no more; its writers' acknowledgements go on from this rim
die, to engines of this module or down a tree. -/
def takeFabAck (s : State) (p : Nat) (k : FabPacket) (t : Time) : State :=
  let h := k.header
  let s := if hRly h then takeEcho s (hCirc h) t else s
  let same (x : SentPacket) : Bool :=
    x.circ == hCirc h && x.addr == hAddr h && x.lines == hLines h && x.k == hScl h && x.e == hSeng h
  match s.fab.sent.find? same with
  | none => s
  | some x =>
    let s := { s with fab := { s.fab with sent := s.fab.sent.erase x } }
    let s := if x.merge && !hErr h then farMergeFlags s x.acks else s
    let s := ackAll s (72 + portRim p) (hErr h) (64 * hAddr h) x.acks
    if hErr h && x.cls = 2 then
      let d := drawNat s
      addressFault d.2 x.k x.e d.1 (64 * hAddr h) 2
    else s

/-- The signal that a sync packet carries (11 Table 11.8). -/
def packetSignal (h : BitVec 128) : Signal :=
  { srcK := hfld h 99 9, srcE := hfld h 108 4, dstK := hfld h 64 9, task := hfld h 79 2, obj := hfld h 73 6
    op := hfld h 81 2, amount := hfld h 83 16, circ := hCirc h, unf := bitAt h.toNat 112
    relay := if bitAt h.toNat 113 then some 0 else none, remote := true }

/-- A sync packet at its ingress rim die: a relay signal waits for its lines; any other goes to its cluster on the sync network
(11 R315, R317). -/
def takeSync (s : State) (p : Nat) (k : FabPacket) : State :=
  let h := k.header
  let g := packetSignal h
  if !signalTarget s g.dstK g.task || 48 ≤ g.obj then sendBare s (ackPacket s h g.srcK g.srcE true)
  else if g.relay.isSome then
    let same (c : RelayCount) : Bool := c.circ == hCirc h && c.smod == hSmod h && c.scl == g.srcK && c.seng == g.srcE
    let w := (g, hfld h 114 12 + 1, h)
    let rs := s.fab.relay
    let rs := if rs.any same then rs.map (fun c => if same c then { c with waiting := c.waiting ++ [w] } else c)
      else rs ++ [{ circ := hCirc h, smod := hSmod h, scl := g.srcK, seng := g.srcE, lines := 0, used := 0, waiting := [w] }]
    { s with fab := { s.fab with relay := rs } }
  else sendSync s (72 + portRim p) (some h) g

/-- A packet of the frame taken by its type. -/
def acceptPacket (s : State) (p : Nat) (t : Time) (k : FabPacket) : State :=
  match hType k.header with
  | 0 => takeWrite s p k false
  | 1 => takeWrite s p k true
  | 2 => takeContribution s p k
  | 3 => takeFabAck s p k t
  | _ => takeSync s p k

/-- Whether a packet has come to its end: it is for this module, or a contribution on a circuit that ends here. -/
def endsHere (s : State) (h : BitVec 128) : Bool :=
  hDmod h == myModule s || (hType h == 2 && (circuitPeer s (hCirc h)).isSome)

/-- The way on of a packet whose circuit goes on to its destination from here (11 R305, R307). -/
def goesOn (s : State) (p : Nat) (k : FabPacket) : Option (Nat × FabPacket) :=
  match circuitAt s (hCirc k.header) with
  | none => none
  | some c => if hDmod k.header == c.modA || hDmod k.header == c.modB then routeTransit s (portRim p) k c else none

/-- A packet in transit: queued at its rim die's other port, or sent across the panel to the rim die of its next leg, which
always has a buffer for it (11 R307; log entry 71). -/
def passOn (s : State) (p : Nat) (x : Nat × FabPacket) : State :=
  let sp := bareSent s x.2
  let s := { s with noc := { s.noc with nextId := s.noc.nextId + 1 } }
  if portRim p = portRim x.1 then enqueue s { sp := sp, pkt := x.2, port := some x.1 }
  else
    crossPanel s (72 + portRim p) (72 + portRim x.1) sp
      (if hType x.2.header = 4 then some (packetSignal x.2.header) else none) x.2

/-- Whether a module that holds a frame takes packets of it: its job runs, outside any recovery. -/
def takesFrames (s : State) : Bool := jobRunning s && !s.tick.recovery.active

/-- The frame-tag check (02 R60, 11 R304). A packet of the current frame that no frame can take is stale. -/
def tagPacket (s : State) (p : Nat) (t : Time) (k : FabPacket) : State :=
  let d := (frameTag s + 65536 - hTag k.header) % 65536
  let stale : State := { s with tick := { s.tick with stale := s.tick.stale + 1 } }
  if d = 0 then (if takesFrames s then acceptPacket s p t k else stale)
  else if d < 32768 then stale
  else if d = 65535 then { s with fab := { s.fab with held := s.fab.held ++ [(p, k)] } }
  else raise s .module 0x12 noEngine 0 0 none

/-- What an ingress rim die does with a packet of a frame (11 R305). -/
def takePacket (s : State) (p : Nat) (t : Time) (k : FabPacket) : State :=
  let h := k.header
  if 8 ≤ hType h || (circuitAt s (hCirc h)).isNone then discardPacket s p
  else if endsHere s h then tagPacket s p t k
  else match goesOn s p k with
    | some x => passOn s p x
    | none => discardPacket s p

/-- The packets that stand before a packet in the buffer of its channel: each channel delivers in order (11 R310). -/
def behindArrived (r : PortRec) (k : FabPacket) : Bool :=
  match r.arrived.find? (fun x => channelOf x == channelOf k) with
  | none => false
  | some x => x != k

/-- What every command that takes in a packet does first: it comes in the order of its channel from the packets that the port's
codewords completed, or one of which no command showed the codewords, where the port does not discard. A module without an ID
takes none (R298). None: nothing is taken. -/
def arrive (s : State) (p : Nat) (k : FabPacket) : Option State :=
  let r := portAt s p
  let known := r.arrived.contains k
  if !(r.state == .up || r.state == .closed) || s.fab.moduleId = 0#16 then none
  else if behindArrived r k || (!known && r.discard) then none
  else some (if known then judgeXoff (modPort s p (fun r => { r with arrived := r.arrived.erase k })) p else s)

/-- A management packet or vote for another module: sent on its route, or discarded and counted on the port where it arrived (11
R324). -/
def forwardMgmt (s : State) (p : Nat) (k : FabPacket) : State :=
  match mgmtRoute s (hDmod k.header) with
  | some x =>
    enqueue { s with noc := { s.noc with nextId := s.noc.nextId + 1 } } { sp := bareSent s k, pkt := putDl k x.2, port := some x.1 }
  | none => discardPacket s p

/-- FABRIC_PACKET_RECEIVED (11 R305). Management packets and domain votes have commands of their own. -/
def execFabricPacketReceived (p : PortId) (t : Time) (k : FabPacket) (s : State) : Host.Outcome State Fault Refusal :=
  if 5 ≤ hType k.header && hType k.header ≤ 7 then .next s
  else match arrive s p.val k with
    | none => .next s
    | some s => .next (judgeXoff (takePacket s p.val t k) p.val)

/-- Packets of the next frame held at ingress, accepted at step 6 (02 Table 2.7). -/
def acceptHeld (s : State) : State :=
  let hs := s.fab.held
  let s := hs.foldl (fun a x => acceptPacket a x.1 0 x.2) { s with fab := { s.fab with held := [] } }
  hs.foldl (fun a x => judgeXoff a x.1) s

end Sys2Proof.Machine
end

