-- ==== Sys2Proof/Machine/Serving.lean ====
section
/-!
DEFINITION. The service layer: request protocol, batcher, pager, sampler (spec 12).
-/
namespace Sys2Proof.Machine
open Sys2Proof

/-! ### Requests -/

/-- The serving plan of the job held. -/
def servingPlan (s : State) : Option ServingPlan :=
  match s.job.plan with
  | some p => p.plan
  | none => none

/-- Whether a serving job is held and takes requests. -/
def takesRequests (s : State) : Bool := (servingPlan s).isSome && (s.job.state == .starting || s.job.state == .running)

/-- A request by its key. -/
def findRequest (s : State) (k : RequestKey) : Option Request := s.svc.requests.find? (fun r => r.key == k)
/-- The state with one request changed. -/
def modRequest (s : State) (k : RequestKey) (f : Request → Request) : State :=
  { s with svc := { s.svc with requests := s.svc.requests.map (fun r => if r.key == k then f r else r) } }
/-- Whether a request is live. -/
def Request.live (r : Request) : Bool := r.stage != .ended
/-- A request forgotten. -/
def dropRequest (s : State) (k : RequestKey) : State :=
  { s with svc := { s.svc with requests := s.svc.requests.filter (fun r => r.key != k) } }

/-- A reply to a request, which a duplicate SUBMIT has repeated. -/
def reply (s : State) (r : Request) (type : Nat) (body : List Byte) : State :=
  let s := sendMsg s r.port r.key.src type r.key.rid body
  modRequest s r.key (fun r => { r with lastType := BitVec.ofNat 8 type, lastBody := body })

/-- A slot with no request; its pages stay until they are written out. -/
def vacate (v : Service) (k : RequestKey) : Service :=
  { v with slots := tmap v.slots (fun _ x => if x.key == some k then { x with key := none, ntok := 0 } else x) }

/-- A request ended: its slot is free, and the time of its end is the latest time known. -/
def endNow (s : State) (k : RequestKey) : State :=
  let s := modRequest s k (fun r => { r with stage := .ended, slot := none, retire := none, endedAt := s.svc.now })
  { s with svc := vacate s.svc k }

/-- DONE (12 R332). -/
def sendDone (s : State) (r : Request) (reason : Nat) : State :=
  let s := endNow (reply s r 6 (doneBody reason r.tokens.length)) r.key
  { s with svc := { s.svc with done := s.svc.done + 1 } }
/-- REJECT of a request in the table. -/
def sendReject (s : State) (r : Request) (reason : Nat) : State :=
  let s := endNow (reply s r 7 (rejectBody reason)) r.key
  { s with svc := { s.svc with rejected := s.svc.rejected + 1 } }

/-- The body of TOKENS (12 Table 12.4). -/
def tokensBody (first : Nat) (ts : List Word) : List Byte :=
  leBytes 4 first ++ leBytes 4 ts.length ++ ts.flatMap (fun t => leBytes 4 t.toNat)

/-- Tokens from an index on, in messages of at most 2,281. -/
def tokenMessages (first : Nat) (ts : List Word) : List (List Byte) :=
  ((chunksOf 2281 ts).zipIdx).map (fun c => tokensBody (first + 2281 * c.2) c.1)

/-! ### Datagrams (12 R328 to R332) -/

/-- Whether the source of a datagram lies in the allowed prefix (12 R328). -/
def allowedSource (s : State) (src : BitVec 128) : Bool :=
  let n := 128 - s.svc.prefixLen.toNat
  src.toNat / 2 ^ n == s.svc.pfx.toNat / 2 ^ n

/-- Whether a port answers at all. -/
def answers (s : State) (p : Nat) : Bool := s.fab.ethPorts.getLsbD p && portAddr s p != 0

/-- The source of a valid datagram is the next hop to it (12 R329). -/
def learnHop (s : State) (d : Datagram) : State :=
  { s with svc := { s.svc with hops := s.svc.hops.filter (fun h => h.1 != d.ip.src) ++ [(d.ip.src, d.mac, d.srcPort)] } }

/-- Whether an address is one of a port: its unicast address, or the solicited-node address of that (12 Table 12.2). -/
def ownAddress (s : State) (p : Nat) (a : BitVec 128) : Bool := a == portAddr s p || a == solicitedNode (portAddr s p)

/-- The message that a datagram brings to the service cores of its port; none where it is discarded: a source outside the prefix,
extension headers or a fragment, another UDP port, a bad checksum, a wrong header, or a type that no client sends (12 R328 to
R330). -/
def validMessage (s : State) (d : Datagram) : Option Message :=
  if allowedSource s d.ip.src && !d.ip.ext && d.dstPort == s.svc.udpPort && checksumOk d then
    (messageOf d).filter (fun m => clientType m.type)
  else none

/-- A datagram counted as discarded. -/
def countDiscard (s : State) : State := { s with svc := { s.svc with discarded := s.svc.discarded + 1 } }

/-- A datagram on a port: for its message, where it is of the given type, the given act; one that is not valid is discarded and
counted. A port without an address answers nothing, and a datagram for another address is none of its own. -/
def takeDatagram (s : State) (d : Datagram) (type : Nat) (act : State → Message → State) : State :=
  if !answers s d.port.val || !ownAddress s d.port.val d.ip.dst then s
  else match validMessage s d with
    | none => countDiscard s
    | some m => if m.type = type then act (learnHop s d) m else s

/-- The words of a body from an offset on. -/
def bodyWords (b : List Byte) (off : Nat) : List Word := (chunksOf 4 (b.drop off)).map (fun w => BitVec.ofNat 32 (leNat w))

/-- Whether a FP32 value lies in a closed range. -/
def within32 (w lo hi : Word) : Bool := !(val32 w).isNan && !(val32 w).lt (val32 lo) && !(val32 hi).lt (val32 w)

/-- Whether a SUBMIT body is well formed and in range (12 Tables 12.4, 12.5; 00 R10). -/
def submitOk (b : List Byte) : Bool :=
  let plen := fieldAt b 0 4
  let temp : Word := BitVec.ofNat 32 (fieldAt b 8 4)
  let topp : Word := BitVec.ofNat 32 (fieldAt b 12 4)
  let topk := fieldAt b 16 2
  64 ≤ b.length && b.length % 4 == 0 && (b.length - 64) / 4 ≤ 2267 && (b.length - 64) / 4 ≤ plen &&
  1 ≤ plen && 1 ≤ fieldAt b 4 4 &&
  ((val32 temp).isZero || within32 temp 0x3B800000 0x41800000) &&
  (within32 topp 0 one32 && !(val32 topp).isZero) &&
  topk ≤ 1024 && fieldAt b 18 1 ≤ 4 && fieldAt b 19 5 == 0 && fieldAt b 48 16 == 0

/-- Tokens put into a prompt where none stands yet. -/
def addPrompt (t : Tbl Word) (first : Nat) (ts : List Word) : Tbl Word :=
  ts.zipIdx.foldl (fun t x => match tfind t (first + x.2) with
    | some _ => t
    | none => tset t (first + x.2) x.1) t

/-- A new request (12 Table 12.5). -/
def newRequest (s : State) (m : Message) : Request :=
  let b := m.body
  let p := addPrompt [] 0 (bodyWords b 64)
  let plen := fieldAt b 0 4
  { key := { src := m.src, rid := m.rid }, port := m.port.val
    stage := if p.length = plen then .queued else .collecting
    accepted := false, plen := plen, maxNew := fieldAt b 4 4, temp := BitVec.ofNat 32 (fieldAt b 8 4)
    topp := BitVec.ofNat 32 (fieldAt b 12 4), topk := fieldAt b 16 2, seed := BitVec.ofNat 64 (fieldAt b 24 8)
    stop := (List.range (fieldAt b 18 1)).map (fun i => BitVec.ofNat 32 (fieldAt b (32 + 4 * i) 4))
    prompt := p, tokens := [], fresh := 0, sent := 0, acked := 0, resends := 0, slot := none, phase := 0, pos := 0
    cancel := false, retire := none, lastType := 0, lastBody := [], endedAt := s.svc.now }

/-- 10 s in units of 0.25 ns. -/
def tenSeconds : Time := 40000000000

/-- A SUBMIT that starts something: recorded, or rejected with the first reason of Table 12.6 that applies. -/
def newSubmit (s : State) (m : Message) : State :=
  let s := { s with svc := { s.svc with received := s.svc.received + 1 } }
  let bare (s : State) (reason : Nat) : State :=
    let s := sendMsg s m.port.val m.src 7 m.rid (rejectBody reason)
    { s with svc := { s.svc with rejected := s.svc.rejected + 1 } }
  match servingPlan s with
  | none => bare s 4
  | some pl =>
    if !takesRequests s then bare s 4
    else
      let r := newRequest s m
      let live := (s.svc.requests.filter Request.live).length
      let s := { s with svc := { s.svc with requests := s.svc.requests ++ [r] } }
      if !submitOk m.body then sendReject s r 1
      else if 256 * pl.tpp < r.plen + r.maxNew then sendReject s r 2
      else if 4096 ≤ live then sendReject s r 3
      else s

/-- The key of a message's request (12 R331). -/
def Message.key (m : Message) : RequestKey := { src := m.src, rid := m.rid }

/-- What a SUBMIT does (12 R331): a duplicate of a live request, or of one that ended in the last 10 s, repeats the last reply. -/
def takeSubmit (t : Time) (s : State) (m : Message) : State :=
  match findRequest s m.key with
  | none => newSubmit s m
  | some r =>
    if r.live || t ≤ r.endedAt + tenSeconds then
      (if r.lastType = 0#8 then s else sendMsg s r.port r.key.src r.lastType.toNat r.key.rid r.lastBody)
    else newSubmit (dropRequest s m.key) m

/-- What a PROMPT does (12 R331): tokens already received are ignored; the request joins the queue when every token is there. A
malformed PROMPT of a request that collects is REJECT 01h. -/
def takePrompt (s : State) (m : Message) : State :=
  match findRequest s m.key with
  | none => s
  | some r =>
    if r.stage != .collecting then s
    else
      let first := fieldAt m.body 0 4
      let n := fieldAt m.body 4 4
      if n < 1 || 2281 < n || m.body.length != 8 + 4 * n || r.plen < first + n then sendReject s r 1
      else
        let p := addPrompt r.prompt first (bodyWords m.body 8)
        modRequest s r.key (fun r => { r with prompt := p, stage := if p.length = r.plen then .queued else .collecting })

/-- What an ACK does (12 R332). -/
def takeTokenAck (s : State) (m : Message) : State :=
  match findRequest s m.key with
  | none => s
  | some r =>
    let a := fieldAt m.body 0 4
    if m.body.length = 4 && r.acked < a && a ≤ r.sent then modRequest s r.key (fun r => { r with acked := a, resends := 0 })
    else s

/-- What a CANCEL does (12 R335): it takes effect when the batcher next writes. -/
def takeCancel (s : State) (m : Message) : State := modRequest s m.key (fun r => { r with cancel := r.live || r.cancel })

/-- SUBMIT. -/
def execSubmit (d : Datagram) (t : Time) (s : State) : Host.Outcome State Fault Refusal :=
  .next (takeDatagram { s with svc := { s.svc with now := max s.svc.now t } } d 1 (takeSubmit t))
/-- PROMPT. -/
def execPrompt (d : Datagram) (s : State) : Host.Outcome State Fault Refusal := .next (takeDatagram s d 8 takePrompt)
/-- ACK. -/
def execAck (d : Datagram) (s : State) : Host.Outcome State Fault Refusal := .next (takeDatagram s d 4 takeTokenAck)
/-- CANCEL. -/
def execCancel (d : Datagram) (s : State) : Host.Outcome State Fault Refusal := .next (takeDatagram s d 5 takeCancel)

/-- TOKENS_RESEND (12 R332): after 8 resends with no advance a live request ends with DONE 04h; the tokens that a
request kept beyond its end go. -/
def execTokensResend (k : RequestKey) (s : State) : Host.Outcome State Fault Refusal :=
  match findRequest s k with
  | none => .next s
  | some r =>
    if r.sent ≤ r.acked then .next s
    else if r.resends < 8 then
      let ms := tokenMessages r.acked ((r.tokens.take r.sent).drop r.acked)
      let s := ms.foldl (fun s b => sendMsg s r.port r.key.src 3 r.key.rid b) s
      let s := modRequest s k (fun r => { r with
        resends := r.resends + 1, lastType := 3, lastBody := (ms.getLast?).getD r.lastBody })
      .next { s with svc := { s.svc with resends := s.svc.resends + BitVec.ofNat 32 ms.length } }
    else if r.live then .next (modRequest (sendDone s r 4) k (fun r => { r with acked := r.sent }))
    else .next (modRequest s k (fun r => { r with acked := r.sent }))

/-- PROMPT_TIMEOUT (12 Table 12.6): 100 ms after the SUBMIT. -/
def execPromptTimeout (k : RequestKey) (s : State) : Host.Outcome State Fault Refusal :=
  match findRequest s k with
  | none => .next s
  | some r => .next (if r.stage == .collecting then sendReject s r 5 else s)

/-- QUEUE_WAIT_EXPIRY (12 R339). -/
def execQueueWaitExpiry (k : RequestKey) (s : State) : Host.Outcome State Fault Refusal :=
  match findRequest s k with
  | none => .next s
  | some r => .next (if r.stage == .queued then sendReject s r 3 else s)

/-! ### Frames (12 R334, R335) -/

/-- The phase of the frame that runs. -/
def framePhase (s : State) : Nat := s.tick.committed.toNat % 2

/-- Whether the service cores may write module memory (12 R327): a frame runs and the cutoff has not come. -/
def mayServe (s : State) : Bool :=
  jobRunning s && s.tick.phase == .idle && s.tick.issueOn && !s.tick.recovery.active && !s.svc.cutoff

/-- A byte range cut where the lines of one packet end: every 256 bytes of address. -/
def packetParts (a : Nat) (bs : List Byte) : List (Nat × List Byte) :=
  let n := 256 - a % 256
  if bs.length ≤ n then [(a, bs)]
  else (a, bs.take n) :: ((chunksOf 256 (bs.drop n)).zipIdx.map (fun c => (a + n + 256 * c.2, c.1)))

/-- A write of the service cores of rim die n to module memory: bulk packets of up to 4 lines, translated by the rim die (12
R327). Part of a line goes as it is. -/
def svcWrite (s : State) (n a : Nat) (bs : List Byte) : State :=
  let u := 72 + n
  (packetParts a bs).foldl (fun s p => sendBulk s u (homeUnit s u p.1) (homeLocal p.1) (fun w =>
    { kind := .write, k := serviceCode n, e := 15, task := 0, ord := 0, addr := p.1
      lines := (p.1 % 64 + p.2.length + 63) / 64, data := p.2, relay := none, way := w })) s

/-- A slot that nobody has used. -/
def slotEmpty : SlotRec := { key := none, phase := 0, ntok := 0, pages := [] }
/-- A slot. -/
def slotAt (s : State) (i : Nat) : SlotRec := tget slotEmpty s.svc.slots i
/-- Slots of a phase in use. -/
def phaseCount (s : State) (ph : Nat) : Nat := (s.svc.slots.filter (fun x => x.2.key.isSome && x.2.phase == ph)).length

/-- A token of a request's sequence: its prompt, then what was generated. -/
def tokenAt (r : Request) (i : Nat) : Word := if i < r.plen then tget 0 r.prompt i else r.tokens.getD (i - r.plen) 0
/-- The tokens of a request so far. -/
def Request.total (r : Request) : Nat := r.plen + r.tokens.length
/-- Tokens of a request's next frame. -/
def nextTokens (pl : ServingPlan) (r : Request) : Nat := if r.retire.isSome then 0 else min pl.chunk (r.total - r.pos)
/-- Pages of a request's next frame. -/
def nextPages (pl : ServingPlan) (r : Request) : Nat := ceilDiv (r.pos + nextTokens pl r) pl.tpp
/-- Pages that a slot still lacks for a request's next frame. -/
def lacking (pl : ServingPlan) (x : SlotRec) (r : Request) : Nat :=
  ((List.range (nextPages pl r)).filter (fun i => (tfind x.pages i).isNone)).length

/-- The request in a slot. -/
def slotRequest (s : State) (x : SlotRec) : Option Request := x.key.bind (findRequest s)

/-- Page frames that the slots of a phase still take for their next frame. -/
def framesDue (s : State) (pl : ServingPlan) (ph : Nat) : Nat :=
  (s.svc.slots.filter (fun x => x.2.phase == ph)).foldl (fun n x =>
    match slotRequest s x.2 with
    | some r => n + lacking pl x.2 r
    | none => n) 0

/-- The lowest slot with no request. -/
def vacantSlot (s : State) (pl : ServingPlan) : Option Nat := (List.range pl.slots).find? (fun i => (slotAt s i).key.isNone)

/-- Whether one more request may have a slot of a phase. -/
def roomFor (s : State) (pl : ServingPlan) (ph : Nat) (i : Nat) (r : Request) : Bool :=
  phaseCount s ph < s.svc.capacity.toNat && phaseCount s ph ≤ phaseCount s (1 - ph) &&
  framesDue s pl ph + lacking pl (slotAt s i) r ≤ s.svc.freeFr.length

/-- Queued requests admitted in order of arrival, until one cannot be; a cancelled one is retired instead. -/
def admitQueue (pl : ServingPlan) (ph : Nat) : List Request → State → State
  | [], s => s
  | r :: rs, s =>
    if r.stage != .queued && r.stage != .collecting then admitQueue pl ph rs s
    else if r.cancel then admitQueue pl ph rs (modRequest s r.key (fun r => { r with retire := some 2 }))
    else if r.stage == .collecting then admitQueue pl ph rs s
    else match vacantSlot s pl with
      | none => s
      | some i =>
        if roomFor s pl ph i r then
          let s := modRequest s r.key (fun r => { r with stage := .running, slot := some i, phase := ph, pos := 0 })
          let x := { slotAt s i with key := some r.key, phase := ph, ntok := 0 }
          admitQueue pl ph rs { s with svc := { s.svc with slots := tset s.svc.slots i x } }
        else s

/-- A batch table entry (12 Table 12.8). -/
def batchEntry (pl : ServingPlan) (r : Request) : List Byte :=
  let n := nextTokens pl r
  let st := if r.retire.isSome then 0 else if r.pos < r.plen then 1 else 2
  if st = 0 then leBytes 64 0
  else leBytes 64 (st + 2 ^ 16 * n + 2 ^ 32 * r.pos + 2 ^ 64 * (nextPages pl r % 256)
    + 2 ^ 72 * (if r.pos + n = r.total then 1 else 0))

/-- The address of a slot's entry in the half of a phase. -/
def entryAddr (pl : ServingPlan) (ph i : Nat) : Nat := pl.batch + ph * pl.slots * 64 + 64 * i
/-- The address of a slot's tokens. -/
def tokenAddr (pl : ServingPlan) (i : Nat) : Nat := pl.tok + 4 * i * pl.chunk

/-- One slot's entry and tokens written for the next frame. A CANCEL takes effect here. -/
def writeEntry (pl : ServingPlan) (ph : Nat) (s : State) (i : Nat) : State :=
  let x := slotAt s i
  if x.phase != ph then svcWrite s pl.batcher (entryAddr pl ph i) (leBytes 64 0)
  else match x.key with
    | none => svcWrite s pl.batcher (entryAddr pl ph i) (leBytes 64 0)
    | some k =>
      let s := modRequest s k (fun r => if r.cancel && r.retire.isNone then { r with retire := some 2 } else r)
      match findRequest s k with
      | none => s
      | some r =>
        let n := nextTokens pl r
        let s := svcWrite s pl.batcher (entryAddr pl ph i) (batchEntry pl r)
        let s := if n = 0 then s else
          svcWrite s pl.batcher (tokenAddr pl i) ((List.range n).flatMap (fun j => leBytes 4 (tokenAt r (r.pos + j)).toNat))
        { s with svc := { s.svc with slots := tset s.svc.slots i { x with ntok := n } } }

/-- BATCH_ADMISSION (12 R335): requests admitted, and the half of the next frame's phase written. -/
def execBatchAdmission (s : State) : Host.Outcome State Fault Refusal :=
  match servingPlan s with
  | none => .next s
  | some pl =>
    if mayServe s then
      let ph := 1 - framePhase s
      let s := admitQueue pl ph s.svc.requests s
      .next ((List.range pl.slots).foldl (writeEntry pl ph) s)
    else .next s

/-! ### Pages (12 R336) -/

/-- Bytes of a page. -/
def pageBytes : Nat := 65536
/-- The home of a page. -/
def pageHome (pl : ServingPlan) (i p : Nat) : Nat := pl.home + (256 * i + p) * pageBytes
/-- The page table entry of a page. -/
def pageEntry (pl : ServingPlan) (i p : Nat) : Nat := pl.ptab + 1024 * i + 4 * p
/-- The address that bits [47:16] name. -/
def frameAddr (f : Nat) : Nat := f * pageBytes

/-- The stack of a page's home, whose rim die's pager moves the page (12 Table 12.1, R336). -/
def pageStack (pl : ServingPlan) (i p : Nat) : Nat := pageHome pl i p / stackWindow

/-- 64 KiB copied by the service cores of rim die n. -/
def copyPage (s : State) (n src dst : Nat) : State := svcWrite s n dst (readBytes s src pageBytes)

/-- A page brought in, where the next frame reads it and a frame is free. -/
def bringIn (s : State) (pl : ServingPlan) (i p : Nat) : State :=
  let x := slotAt s i
  match slotRequest s x, s.svc.freeFr with
  | some r, f :: rest =>
    if x.phase != framePhase s && p < nextPages pl r && (tfind x.pages p).isNone then
      let s := copyPage s (pageStack pl i p) (pageHome pl i p) (frameAddr f)
      let s := svcWrite s (pageStack pl i p) (pageEntry pl i p) (leBytes 4 f)
      { s with svc := { s.svc with slots := tset s.svc.slots i { x with pages := tset x.pages p f }, freeFr := rest } }
    else s
  | _, _ => s

/-- PAGE_IN. -/
def execPageIn (slot : Nat) (page : Fin 256) (s : State) : Host.Outcome State Fault Refusal :=
  match servingPlan s with
  | none => .next s
  | some pl => .next (if mayServe s && slot < pl.slots then bringIn s pl slot page.val else s)

/-- A page written out, where its slot processes nothing in this frame. -/
def takeOut (s : State) (pl : ServingPlan) (i p : Nat) : State :=
  let x := slotAt s i
  match tfind x.pages p with
  | some f =>
    if x.phase = framePhase s && x.ntok != 0 then s
    else
      let s := copyPage s (pageStack pl i p) (frameAddr f) (pageHome pl i p)
      let s := svcWrite s (pageStack pl i p) (pageEntry pl i p) (leBytes 4 0)
      { s with svc := { s.svc with
        slots := tset s.svc.slots i { x with pages := terase x.pages p }, freeFr := s.svc.freeFr ++ [f] } }
  | none => s

/-- PAGE_OUT. -/
def execPageOut (slot : Nat) (page : Fin 256) (s : State) : Host.Outcome State Fault Refusal :=
  match servingPlan s with
  | none => .next s
  | some pl => .next (if mayServe s && slot < pl.slots then takeOut s pl slot page.val else s)

/-! ### Sampling (12 R337) -/

/-- A token with its value. -/
abbrev Ranked := List (Nat × Word)

/-- An entry put behind those that are not smaller. -/
def rankInsert (e : Nat × Word) : Ranked → Ranked
  | [] => [e]
  | y :: r => if (val32 y.2).lt (val32 e.2) then e :: y :: r else y :: rankInsert e r
/-- Entries by falling value, the lowest index first on ties, from a list of rising index. -/
def rankDown (l : Ranked) : Ranked := l.foldl (fun a e => rankInsert e a) []

/-- The running sums of a list, in FP32. -/
def runningSums (acc : Word) : List Word → List Word
  | [] => []
  | w :: r => (add32 acc w).1 :: runningSums (add32 acc w).1 r

/-- The shortest prefix whose running sum reaches a threshold; the whole list where none does. -/
def reachPrefix (l : Ranked) (thr : Word) : Ranked :=
  match (runningSums 0 (l.map Prod.snd)).findIdx? (fun w => !(val32 w).isNan && !(val32 w).lt (val32 thr)) with
  | some i => l.take (i + 1)
  | none => l

/-- What a sampler draws. -/
inductive Draw where
  | noValue
  | token (i : Nat)
  | unstated
deriving DecidableEq, Repr

/-- A draw from a row of values. -/
def drawToken (row : List Word) (temp topp : Word) (topk u : Nat) : Draw :=
  let vs := (row.map (fun w => if (val32 w).isNan then ninf32 else w)).zipIdx.map (fun x => (x.2, x.1))
  if vs.all (fun v => v.2 == ninf32) then .noValue
  else if (val32 temp).isZero then
    (match rankDown vs with
     | [] => .noValue
     | v :: _ => .token v.1)
  else
    let x := vs.map (fun v => (v.1, (div32 v.2 temp).1))
    let top := rankDown x
    let kept := if topk = 0 then top else top.take topk
    let most := (top.head?.map Prod.snd).getD 0
    let q := (x.filter (fun v => kept.any (fun k => k.1 == v.1))).map (fun v => (v.1, expWord (sub32 v.2 most).1))
    let total := ((runningSums 0 (q.map Prod.snd)).getLast?).getD 0
    let pre := reachPrefix (rankDown q) (mul32 topp total).1
    let sums := runningSums 0 (pre.map Prod.snd)
    let goal := (mul32 (round32 (.fin false u (-64))).1 (sums.getLast?.getD 0)).1
    match (pre.zip sums).find? (fun e => (val32 goal).lt (val32 e.2)) with
    | some e => .token e.1.1
    | none => .unstated

/-- Bytes of a logit. -/
def logitBytes (pl : ServingPlan) : Nat := if pl.lfmt = 0#4 then 4 else 2
/-- The address of a slot's row: rows are whole lines apart. -/
def rowAddr (pl : ServingPlan) (i : Nat) : Nat := pl.logit + i * (ceilDiv (pl.vocab * logitBytes pl) 64 * 64)
/-- The values of a slot's row as committed. -/
def logitRow (s : State) (pl : ServingPlan) (i : Nat) : List Word :=
  let bs := readBytes s (rowAddr pl i) (pl.vocab * logitBytes pl)
  if pl.lfmt = 0#4 then (chunksOf 4 bs).map (fun b => BitVec.ofNat 32 (leNat b))
  else (chunksOf 2 bs).map (fun b => bf16To32 (BitVec.ofNat 16 (leNat b)))

/-- The random number of a draw: the first 64 bits of SHAKE256 of seed, RID and POS. -/
def drawU (r : Request) : Nat :=
  leNat (shake256 (leBytes 8 r.seed.toNat ++ leBytes 8 r.key.rid.toNat ++ leBytes 8 r.pos) 8)

/-- A token taken: written to the slot's token area and to the request; a stop token, EOS or MAXNEW retires it. The rim die whose
sampler draws is free. -/
def takeToken (s : State) (pl : ServingPlan) (i : Nat) (r : Request) (t : Word) : State :=
  let d := drawNat s
  let s := svcWrite d.2 (d.1 % 16) (tokenAddr pl i) (leBytes 4 t.toNat)
  modRequest s r.key (fun r => { r with
    tokens := r.tokens ++ [t]
    fresh := r.fresh + 1
    retire := if r.stop.contains t || t = pl.eos then some 0
              else if r.maxNew ≤ r.tokens.length + 1 then some 1 else r.retire })

/-- SAMPLE_TOKEN: in the frame after the one that wrote the row of a slot. -/
def execSampleToken (slot : Nat) (s : State) : Host.Outcome State Fault Refusal :=
  match servingPlan s with
  | none => .next s
  | some pl =>
    let x := slotAt s slot
    match slotRequest s x with
    | none => .next s
    | some r =>
      if mayServe s && slot < pl.slots && x.phase != framePhase s && r.retire.isNone && 0 < r.pos && r.pos == r.total then
        (match drawToken (logitRow s pl slot) r.temp r.topp r.topk (drawU r) with
         | .noValue => .next (modRequest s r.key (fun r => { r with retire := some 5 }))
         | .token t => .next (takeToken s pl slot r (BitVec.ofNat 32 t))
         | .unstated =>
           let d := drawNat s
           .next (takeToken d.2 pl slot r (BitVec.ofNat 32 d.1)))
      else .next s

/-- SERVICE_CUTOFF (12 R327). -/
def execServiceCutoff (s : State) : Host.Outcome State Fault Refusal :=
  .next (if jobRunning s && (servingPlan s).isSome then { s with svc := { s.svc with cutoff := true } } else s)

/-! ### The commit (12 R335, Table 12.10) -/

/-- Queued requests ahead of a request. -/
def aheadOf (s : State) (k : RequestKey) : Nat :=
  ((s.svc.requests.takeWhile (fun r => r.key != k)).filter (fun r => r.stage == .queued)).length

/-- What a commit sends for one request: ACCEPT, its new tokens, DONE. -/
def commitRequest (s : State) (k : RequestKey) : State :=
  match findRequest s k with
  | none => s
  | some r =>
    if !r.live then s
    else
      let s := if r.accepted then s else
        let s := reply s r 2 (leBytes 4 (aheadOf s k))
        let s := modRequest s k (fun r => { r with accepted := true })
        { s with svc := { s.svc with accepted := s.svc.accepted + 1 } }
      let s := if r.fresh = 0 then s else
        let ts := r.tokens.drop r.sent
        let s := reply s r 3 (tokensBody r.sent ts)
        let s := modRequest s k (fun r => { r with fresh := 0, sent := r.tokens.length })
        { s with svc := { s.svc with sentTok := s.svc.sentTok + BitVec.ofNat 64 ts.length } }
      match r.retire with
      | some c => sendDone s r c.toNat
      | none => s

/-- The slots of the phase that has run: their tokens are held now. -/
def advanceSlots (s : State) (ph : Nat) : State :=
  let ran := s.svc.slots.filter (fun x => x.2.phase == ph && x.2.ntok != 0)
  let s := ran.foldl (fun s x => match x.2.key with
    | some k => modRequest s k (fun r => { r with pos := r.pos + x.2.ntok })
    | none => s) s
  { s with svc := { s.svc with slots := tmap s.svc.slots (fun _ x => if x.phase = ph then { x with ntok := 0 } else x) } }

/-- The service layer as the commit leaves it, kept for an abandonment. -/
def saveService (s : State) : State :=
  { s with svc := { s.svc with saved := s.svc.requests, savedSlots := s.svc.slots, savedFree := s.svc.freeFr } }

/-- The service layer's part of a commit of a frame of phase ph. -/
def serviceCommit (s : State) (ph : Nat) : State :=
  if (servingPlan s).isNone then s
  else
    let s := advanceSlots s ph
    saveService ((s.svc.requests.map (fun r => r.key)).foldl commitRequest s)

/-- Cores of a rim die that the defect list retires; the role of one passes to core 3 (14 Table 14.3). -/
def retiredCores (s : State) (n : Nat) : Nat :=
  (s.dl.entries.filter (fun e => defKind e == 14 && defUnit e == 0x48 + n)).length
/-- Samplers of one rim die (12 Table 12.1); none on a rim die retired with its stack. -/
def rimSamplers (s : State) (pl : ServingPlan) (n : Nat) : Nat :=
  if s.dl.entries.any (fun e => defKind e == 13 && defUnit e == 0x48 + n && bitAt (defDetail e) 0) then 0
  else
    let eth := s.fab.ethPorts.getLsbD (rimPorts n).1 || s.fab.ethPorts.getLsbD (rimPorts n).2
    (1 + (if eth then 0 else 1) + (if pl.batcher = n then 0 else 1)) - retiredCores s n
/-- Samplers of the module. -/
def samplerCount (s : State) (pl : ServingPlan) : Nat := (List.range 16).foldl (fun a n => a + rimSamplers s pl n) 0

/-- The service layer when its job may begin: the frame list read, the sampling capacity, no slot in use. -/
def startService (s : State) : State :=
  match servingPlan s with
  | none => s
  | some pl =>
    let fr := (List.range pl.nf).map (fun i => leNat (readBytes s (pl.flist + 4 * i) 4))
    let cap := Config.samplingCapacity s.tick.cfg.period.toNat (samplerCount s pl)
    saveService { s with svc := { s.svc with slots := [], freeFr := fr, capacity := BitVec.ofNat 16 cap, cutoff := false } }

/-! ### Ports (12 R329, 11 R322) -/

/-- What an ICMPv6 message brings about on a port: nothing where the port answers nothing or the message is for another address; a
message behind extension headers, or a fragment, is discarded and counted. -/
def takeIcmp (s : State) (p : Nat) (ip : Ip6In) (act : State → State) : State :=
  if !answers s p || !ownAddress s p ip.dst then s else if ip.ext then countDiscard s else act s

/-- NEIGHBOUR_SOLICITATION: one for the port's address is answered with its link-layer address. -/
def execNeighbourSolicitation (port : PortId) (ip : Ip6In) (mac : BitVec 48) (target : BitVec 128) (s : State) :
    Host.Outcome State Fault Refusal :=
  .next (takeIcmp s port.val ip (fun s =>
    if target = portAddr s port.val then
      { s with out := { s.out with udp := s.out.udp ++
        [.advertisement port.val (ipOut mac (portAddr s port.val) ip.src) target (tget 0 s.fuse.mac port.val)] } }
    else s))

/-- ECHO_REQUEST. -/
def execEchoRequest (port : PortId) (ip : Ip6In) (mac : BitVec 48) (data : List Byte) (s : State) :
    Host.Outcome State Fault Refusal :=
  .next (takeIcmp s port.val ip (fun s =>
    { s with out := { s.out with udp := s.out.udp ++
      [.echoReply port.val (ipOut mac (portAddr s port.val) ip.src) data] } }))

/-- ETHERNET_LINK_DOWN: requests stay live. -/
def execEthernetLinkDown (p : PortId) (s : State) : Host.Outcome State Fault Refusal :=
  .next (if s.fab.ethPorts.getLsbD p.val && (portAt s p.val).state != .retired then
    modPort s p.val (fun r => { r with state := .ethDown }) else s)

/-- ETHERNET_LINK_UP. -/
def execEthernetLinkUp (p : PortId) (s : State) : Host.Outcome State Fault Refusal :=
  .next (if s.fab.ethPorts.getLsbD p.val && (portAt s p.val).state != .retired then
    modPort s p.val (fun r => { r with state := .ethUp }) else s)

/-- DISCARDED_DATAGRAM: frames that Table 11.13 does not allow count in 3100h + p, sub-index 0Ch, datagrams and other ICMPv6 messages
in 3801h:09h. A datagram that is valid is no matter of this command. -/
def execDiscardedDatagram (p : PortId) (reason : DiscardReason) (s : State) : Host.Outcome State Fault Refusal :=
  if !s.fab.ethPorts.getLsbD p.val then .next s
  else match reason with
    | .vlanOrEtherType => .next (modPort s p.val (fun r => { r with frames := r.frames + 1 }))
    | .pause => .next (modPort s p.val (fun r => { r with frames := r.frames + 1 }))
    | .oversized => .next (modPort s p.val (fun r => { r with frames := r.frames + 1 }))
    | .icmpOther => .next (countDiscard s)
    | .datagram d => .next (if d.port = p then takeDatagram s d 0 (fun s _ => s) else s)

end Sys2Proof.Machine
end

