-- ==== Sys2Proof/Machine/Descriptor.lean ====
section
/-!
DEFINITION. The job descriptor: its layout, its items, and the conditions under which a start is refused (spec 16
R430, R432, Tables 16.12, 16.13, 16.18; 02 R41, R50, R54, R55; 04 R84 to R89; 06 R160; 08 R228, R231 to R234; 10
R279; 11 R306, R309, R318; 12 R333).
-/
namespace Sys2Proof.Machine
open Sys2Proof

/-! ### Sections (16 Table 16.12) -/

/-- A section entry; `rest` holds its reserved bits. -/
structure Sect where
  item  : Nat
  typ   : Nat
  cl    : Nat
  count : Nat
  off   : Nat
  len   : Nat
  rest  : Nat
deriving DecidableEq, Repr

/-- No section is concerned (16 Table 16.17). -/
def noItem : Nat := 0xFFFF

/-- Section entry i of a descriptor. -/
def sectAt (d : List Byte) (i : Nat) : Sect :=
  let v := fieldAt d (64 + 16 * i) 16
  { item := i, typ := bitsAt v 0 8, cl := bitsAt v 16 9, count := bitsAt v 32 32, off := bitsAt v 64 32
    len := bitsAt v 96 32, rest := bitsAt v 8 8 + bitsAt v 25 7 }

/-- The section entries of a descriptor. -/
def sections (d : List Byte) : List Sect := (List.range (fieldAt d 4 2)).map (sectAt d)

/-- The bytes of a section. -/
def sectBytes (d : List Byte) (x : Sect) : List Byte := (d.drop x.off).take x.len

/-- The bytes of an item of a fixed size (16 Table 16.13). -/
def itemSize (typ : Nat) : Option Nat :=
  [(1, 64), (2, 16), (3, 16), (4, 32), (7, 16), (9, 2), (0x0A, 128), (0x0B, 32)].lookup typ

/-- The bytes that a combining tree takes with its lists (10 Table 10.4, 11 R318). -/
def treeSize (fabric : Bool) (b : List Byte) : Nat :=
  let v := fieldAt b 0 16
  let nc := bitsAt v 56 7
  let nn := bitsAt v 64 6 + 1
  if fabric then 16 + 4 * nc + 8 * nn else 16 + 2 * nc + 4 * nn
/-- The bytes that a ring takes with its members (11 Table 11.9). -/
def ringSize (b : List Byte) : Nat := 4 + 2 * (bitsAt (fieldAt b 0 1) 4 4 + 1)

/-- n items of a size of their own, cut from bytes that they must fill. -/
def cutItems (size : List Byte → Nat) : Nat → List Byte → Option (List (List Byte))
  | 0, b => if b.isEmpty then some [] else none
  | n + 1, b => if b.length < max 1 (size b) then none
                else (cutItems size n (b.drop (size b))).map (fun r => b.take (size b) :: r)

/-- The items of a section, where they fill it. -/
def sectItems (d : List Byte) (x : Sect) : Option (List (List Byte)) :=
  let b := sectBytes d x
  match itemSize x.typ with
  | some n => if x.len = n * x.count then some (chunksOf n b) else none
  | none =>
    if b.length < x.count then none
    else if x.typ = 5 then cutItems (treeSize false) x.count b
    else if x.typ = 8 then cutItems (treeSize true) x.count b
    else cutItems ringSize x.count b

/-- Whether a type is per cluster. -/
def perCluster (typ : Nat) : Bool := typ == 3 || typ == 4

/-- Whether a section entry is well formed by itself. -/
def sectOk (d : List Byte) (x : Sect) : Bool :=
  x.rest == 0 && 1 ≤ x.typ && x.typ ≤ 0x0B && (x.cl == 0x1FF) == !perCluster x.typ && x.off % 16 == 0 &&
  64 + 16 * fieldAt d 4 2 ≤ x.off && x.off + x.len ≤ d.length && (sectItems d x).isSome &&
  (x.typ != 1 || x.count == 1) && (x.typ != 0x0A || x.count == 1)

/-- Whether two sections overlap. -/
def sectsMeet (x y : Sect) : Bool := 0 < x.len && 0 < y.len && x.off < y.off + y.len && y.off < x.off + x.len

/-- The first section entry that a layout condition concerns, in the order of the entries. -/
def badSect (d : List Byte) (xs : List Sect) : Option Nat :=
  (xs.find? (fun x => !sectOk d x ||
    xs.any (fun y => y.item < x.item && ((y.typ == x.typ && y.cl == x.cl) || sectsMeet x y)))).map Sect.item

/-- Whether the header is right (16 Table 16.12). -/
def headerOk (d : List Byte) : Bool :=
  64 ≤ d.length && fieldAt d 0 2 == 0x4A44 && fieldAt d 2 1 == 1 && fieldAt d 3 1 == 0 && 1 ≤ fieldAt d 4 2 &&
  fieldAt d 4 2 ≤ 4096 && fieldAt d 6 2 == 0 && fieldAt d 8 4 == d.length && (d.drop 12).take 52 == List.replicate 52 0 &&
  64 + 16 * fieldAt d 4 2 ≤ d.length

/-- Reason 02h: the item concerned, if header or layout are wrong or a required section is missing (16 R432). -/
def layoutBad (d : List Byte) (service : Bool) : Option Nat :=
  if !headerOk d then some noItem
  else
    let xs := sections d
    match badSect d xs with
    | some i => some i
    | none =>
      let has (t : Nat) : Bool := xs.any (fun x => x.typ == t)
      if !has 1 || !has 3 || (service && !has 0x0A) then some noItem else none

/-! ### Items as records -/

/-- A carry region (02 Table 2.5). -/
def carryOf (v : Nat) : CarryRegion :=
  { base := bitsAt v 0 48, length := 4096 * bitsAt v 64 32, stack := bitsAt v 96 2 == 1, mash := bitAt v 98 }
/-- Whether its fields are legal. -/
def carryFields (v : Nat) : Bool :=
  bitsAt v 48 16 == 0 && v / 2 ^ 99 == 0 && bitsAt v 0 12 == 0 && 1 ≤ bitsAt v 64 32 && bitsAt v 96 2 ≤ 1

/-- A stream entry (04 Table 4.2). -/
def streamOf (v : Nat) : StreamEntry :=
  { baseLine := bitsAt v 0 21, lines := bitsAt v 24 18 + 1, entryPc := bitsAt v 64 20, context := bitsAt v 88 21
    task := bitsAt v 109 2 }
/-- Whether its fields are legal. -/
def streamFields (v : Nat) : Bool :=
  bitsAt v 21 3 == 0 && bitsAt v 42 22 == 0 && bitsAt v 84 4 == 0 && bitsAt v 111 17 == 0 && 1 ≤ bitsAt v 24 18

/-- A preload entry (04 Table 4.2a). -/
def preloadOf (v : Nat) : Preload := { src := bitsAt v 0 48, dst := bitsAt v 64 48, lines := bitsAt v 128 21 + 1 }
/-- Whether its fields are legal. -/
def preloadFields (v : Nat) : Bool :=
  bitsAt v 48 16 == 0 && bitsAt v 112 16 == 0 && v / 2 ^ 149 == 0 && bitsAt v 0 6 == 0 && bitsAt v 64 6 == 0 &&
  bitsAt v 128 21 < 1572864

/-- A backward descriptor (06 Table 6.5). -/
def backOf (v : Nat) : BackDesc :=
  { region := bitsAt v 0 21, lines := bitsAt v 24 18 + 1, task := bitsAt v 42 2, mfmt := BitVec.ofNat 4 (bitsAt v 44 4)
    pf := bitsAt v 48 4, spill := bitsAt v 64 48, se := bitsAt v 128 24, lim := bitsAt v 152 5, h := bitsAt v 157 4
    init := BitVec.ofNat 2 (bitsAt v 161 2), wlen := bitsAt v 163 16 }
/-- Whether its fields are legal: the fields of task 0 are reserved in the others. -/
def backFields (v : Nat) : Bool :=
  let b := backOf v
  bitsAt v 21 3 == 0 && bitsAt v 52 12 == 0 && bitsAt v 112 16 == 0 && v / 2 ^ 179 == 0 && bitsAt v 64 12 == 0 &&
  (b.mfmt == 0 || b.mfmt == 1 || b.mfmt == 9) && 1 ≤ b.pf && 1 ≤ b.se &&
  (if b.task = 0 then 1 ≤ b.h && b.init != 3 && 1 ≤ b.wlen else bitsAt v 152 27 == 0)

/-- A combining tree on the panel (10 Table 10.4). -/
def treeOf (b : List Byte) : Tree :=
  let v := fieldAt b 0 16
  let nc := bitsAt v 56 7
  let nn := bitsAt v 64 6 + 1
  let node (i : Nat) : TreeNode :=
    let w := fieldAt b (16 + 2 * nc + 4 * i) 4
    { host := bitsAt w 0 6, rim := 0, left := bitsAt w 8 8, right := bitsAt w 16 8, circ := 0 }
  { dcl := bitsAt v 0 9, first := bitsAt v 16 21, lines := bitsAt v 40 12 + 1, number := bitsAt v 52 4
    contrib := (List.range nc).map (fun i => (bitsAt (fieldAt b (16 + 2 * i) 2) 0 9, 0, 0))
    nodes := (List.range nn).map node }
/-- A fabric combining tree (11 R318). -/
def fabTreeOf (b : List Byte) : Tree :=
  let v := fieldAt b 0 16
  let nc := bitsAt v 56 7
  let nn := bitsAt v 64 6 + 1
  let contr (i : Nat) : Nat × Nat × Nat :=
    let w := fieldAt b (16 + 4 * i) 4
    (bitsAt w 0 9, bitsAt w 12 12, bitsAt w 24 8)
  let node (i : Nat) : TreeNode :=
    let w := fieldAt b (16 + 4 * nc + 8 * i) 8
    { host := bitsAt w 0 12, rim := bitsAt w 12 4, left := bitsAt w 16 8, right := bitsAt w 24 8, circ := bitsAt w 32 8 }
  { dcl := bitsAt v 0 9, first := bitsAt v 16 21, lines := bitsAt v 40 12 + 1, number := bitsAt v 52 4
    contrib := (List.range nc).map contr, nodes := (List.range nn).map node }
/-- Whether the reserved bits of a tree and of its lists are 0. -/
def treeReserved (fabric : Bool) (b : List Byte) : Bool :=
  let v := fieldAt b 0 16
  let nc := bitsAt v 56 7
  let nn := bitsAt v 64 6 + 1
  bitsAt v 9 7 == 0 && bitsAt v 37 3 == 0 && bitsAt v 63 1 == 0 && v / 2 ^ 70 == 0 &&
  (List.range nc).all (fun i =>
    if fabric then bitsAt (fieldAt b (16 + 4 * i) 4) 9 3 == 0 else bitsAt (fieldAt b (16 + 2 * i) 2) 9 7 == 0) &&
  (List.range nn).all (fun i =>
    if fabric then bitsAt (fieldAt b (16 + 4 * nc + 8 * i) 8) 40 24 == 0
    else
      let w := fieldAt b (16 + 2 * nc + 4 * i) 4
      bitsAt w 6 2 == 0 && bitsAt w 24 8 == 0)

/-- A ring (11 Table 11.9). -/
def ringOf (b : List Byte) : Ring :=
  let v := fieldAt b 0 4
  let member (i : Nat) : Nat × Nat :=
    let w := fieldAt b (4 + 2 * i) 2
    (bitsAt w 0 12, bitsAt w 12 4)
  { number := bitsAt v 0 4, members := (List.range (bitsAt v 4 4 + 1)).map member }

/-- A circuit (11 Table 11.11). -/
def circuitOf (v : Nat) : Circuit :=
  let leg (i : Nat) : Leg := { ring := bitsAt v (48 + 16 * i) 4, inn := bitsAt v (52 + 16 * i) 4, out := bitsAt v (56 + 16 * i) 4 }
  { number := bitsAt v 0 8, modA := bitsAt v 8 12, modB := bitsAt v 20 12, weight := bitsAt v 32 4
    legs := (List.range (bitsAt v 36 2 + 1)).map leg }

/-- A serving plan (12 Table 12.7). -/
def planOf (v : Nat) : ServingPlan :=
  { batch := bitsAt v 0 48, slots := bitsAt v 48 16, tok := bitsAt v 64 48, chunk := bitsAt v 112 16
    logit := bitsAt v 128 48, lfmt := BitVec.ofNat 4 (bitsAt v 176 4), vocab := bitsAt v 184 24
    ptab := bitsAt v 208 48, flist := bitsAt v 256 48, nf := bitsAt v 304 16, home := bitsAt v 320 48
    tpp := bitsAt v 368 16, eos := BitVec.ofNat 32 (bitsAt v 384 32), svc := bitsAt v 416 48
    batcher := bitsAt v 464 4, nmin := bitsAt v 468 7 }

/-! ### The sections of a descriptor -/

/-- The module-wide section of a type. -/
def sectOf (d : List Byte) (typ : Nat) : Option Sect := (sections d).find? (fun x => x.typ == typ)
/-- Its items; none where the section is absent. -/
def bytesOf (d : List Byte) (typ : Nat) : List (List Byte) :=
  match sectOf d typ with
  | some x => (sectItems d x).getD []
  | none => []
/-- Its items as numbers. -/
def natsOf (d : List Byte) (typ : Nat) : List Nat := (bytesOf d typ).map leNat
/-- The item number of a section. -/
def itemOf (d : List Byte) (typ : Nat) : Nat := match sectOf d typ with
  | some x => x.item
  | none => noItem
/-- The items of one per-cluster section, as numbers. -/
def sectNats (d : List Byte) (x : Sect) : List Nat := ((sectItems d x).getD []).map leNat

/-- The logical clusters of the placement. -/
def placementOf (d : List Byte) : List Nat :=
  let v := (natsOf d 1).headD 0
  (List.range 512).filter (fun k => bitAt v k)

/-- A per-cluster table read from the sections of a type. -/
def clusterTable {α : Type} (d : List Byte) (typ : Nat) (f : Nat → α) : Tbl (List α) :=
  ((sections d).filter (fun x => x.typ == typ)).foldl (fun t x => tset t x.cl ((sectNats d x).map f)) []

/-- The job descriptor as a plan. -/
def jobPlanOf (d : List Byte) : JobPlan where
  placement := placementOf d
  carry := (natsOf d 2).map carryOf
  streams := clusterTable d 3 streamOf
  back := clusterTable d 4 backOf
  trees := (bytesOf d 5).map treeOf
  rings := (bytesOf d 6).map ringOf
  circuits := (natsOf d 7).map circuitOf
  fabTrees := (bytesOf d 8).map fabTreeOf
  members := natsOf d 9
  plan := (natsOf d 0x0A).head?.map planOf
  preload := (natsOf d 0x0B).map preloadOf

/-! ### Stacks at a job start (08 R228, R231, R234) -/

/-- The retired channels that the defect list names for a stack. -/
def retiredChannels (s : State) (n : Nat) : List Nat :=
  ((s.dl.entries.filter (fun e => defKind e == 0x0C && defUnit e == 0x48 + n)).map (fun e => defDetail e % 64)).foldl
    (fun a c => setInsert c a) []

/-- Whether a stack is retired: by its entry, by a fifth retired channel, or with a rim die that is not admitted. -/
def stackGone (s : State) (n : Nat) : Bool :=
  s.dl.entries.any (fun e => defKind e == 0x0D && defUnit e == 0x48 + n) ||
  4 < (retiredChannels s n).length || (stackAt s n).whole

/-- The stacks as the next job finds them: channels spared, whole stacks retired, partners in force. -/
def spareStacks (s : State) : State :=
  let s := (List.range 16).foldl (fun a n =>
    let cs := retiredChannels s n
    modStack a n (fun r => { r with
      retired := BitVec.ofNat 64 (cs.foldl (fun v c => v + 2 ^ c) 0)
      populated := if stackGone s n then 0 else 1125000000 - 35156250 * cs.length })) s
  (List.range 16).foldl (fun a n =>
    modStack a n (fun r => { r with partner := BitVec.ofNat 8 ((partnerOf s n).getD 0xFF) })) s

/-- A piece of a reserve: a bank (0 pale, 1 dark) of copy c of a carry region, or with copy 0 the dark bank of the region at
its home. -/
structure ReserveItem where
  copy   : Nat
  bank   : Nat
  region : CarryRegion
deriving DecidableEq, Repr

/-- Both banks of a copy. -/
def bothBanks (c : Nat) (r : CarryRegion) : List ReserveItem := [⟨c, 0, r⟩, ⟨c, 1, r⟩]
/-- What a scratchpad region puts into the backing area of stack n: `own` for the stacks of R233, else for a substitute
(08 R234). -/
def backingItems (s : State) (n : Nat) (own : Bool) (r : CarryRegion) : List ReserveItem :=
  let m := (r.base - padBase) / padWindow / 8
  let regular := primaryStack m = n || primaryStack m ^^^ 4 = n
  if r.stack || own != regular then []
  else match backingOf s m with
    | some b => if b.1 = n then bothBanks 1 r else if b.2 = n then bothBanks 2 r else []
    | none => []
/-- What a stack region puts into the mirror area of stack n. -/
def mirrorItems (s : State) (n : Nat) (own : Bool) (r : CarryRegion) : List ReserveItem :=
  let h := r.base / stackWindow
  if r.stack && partnerOf s h = some n && own == (h ^^^ 4 == n) then bothBanks 1 r else []
/-- The dark bank of a region homed in stack n. -/
def darkItems (n : Nat) (r : CarryRegion) : List ReserveItem :=
  if r.stack && r.base / stackWindow = n then [⟨0, 1, r⟩] else []
/-- The reserve of stack n in the order in which it is placed (08 R232): its own backing, mirror and dark areas, then what it
takes for a retired stack. -/
def reserveItems (s : State) (p : JobPlan) (n : Nat) : List ReserveItem :=
  p.carry.flatMap (backingItems s n true) ++ p.carry.flatMap (mirrorItems s n true) ++ p.carry.flatMap (darkItems n) ++
  p.carry.flatMap (backingItems s n false) ++ p.carry.flatMap (mirrorItems s n false)

/-- Items placed downwards from a stack offset at 4 KiB alignment, each with its first byte; none where one does not fit. -/
def placeItems : Nat → List ReserveItem → Option (List (Nat × ReserveItem))
  | _, [] => some []
  | top, i :: r =>
    if top < i.region.length then none
    else
      let a := (top - i.region.length) / 4096 * 4096
      (placeItems a r).map (fun l => (a, i) :: l)
/-- The reserve of a stack as it lies in it. -/
def reserveOf (s : State) (p : JobPlan) (n : Nat) : Option (List (Nat × ReserveItem)) :=
  placeItems (64 * (stackAt s n).populated) (reserveItems s p n)
/-- The lowest reserved address of a stack; 0: no reserve, or none that fits. -/
def reserveLow (s : State) (p : JobPlan) (n : Nat) : Nat :=
  if !rideThrough s then 0
  else match (reserveOf s p n).getD [] |>.getLast? with
    | some x => n * stackWindow + x.1
    | none => 0

/-! ### The running set (01 R20) -/

/-- Whether a site that was the destination of a route fault is still out of reach of some unit: it is treated as dark
(10 R274). -/
def cutOff (s : State) (n : Nat) : Bool :=
  (siteAt s n).cut && (List.range 88).any (fun u => u != n && !isDark s u && (findRoute s u n 0).isNone)
/-- Whether a site may hold a logical number in the job that starts (01 R20, 10 R274). -/
def mayHold (s : State) (n : Nat) : Bool := siteHealthy s n && !cutOff s n

/-- The sites of the running set, in rising number. -/
def runningSet (s : State) : List Nat :=
  let base := (List.range 72).filter (fun n => mayHold s n && !isSlatePos s.topo n)
  let rowSlate (r : Nat) : List Nat :=
    if (base.filter (fun n => siteRow n == r)).length < 8 then
      (List.range 72).filter (fun n => siteRow n == r && isSlatePos s.topo n && mayHold s n)
    else []
  let promoted := (List.range 8).flatMap rowSlate
  let idle := (List.range 72).filter (fun n => isSlatePos s.topo n && mayHold s n && !promoted.contains n)
  let more := idle.take (64 - (base.length + promoted.length))
  (List.range 72).filter (fun n => base.contains n || promoted.contains n || more.contains n)

/-! ### Conditions on the descriptor, by reason (16 Table 16.18) -/

/-- Whether two of the ranges [lo, hi) overlap. -/
def anyMeet : List (Nat × Nat) → Bool
  | [] => false
  | x :: r => r.any (fun y => x.1 < y.2 && y.1 < x.2) || anyMeet r

/-- The bytes of a carry region. -/
def CarryRegion.range (r : CarryRegion) : Nat × Nat := (r.base, r.base + r.length)
/-- Whether [lo, hi) lies in one carry region that a test admits. -/
def inRegion (p : JobPlan) (ok : CarryRegion → Bool) (lo hi : Nat) : Bool :=
  p.carry.any (fun r => ok r && r.base ≤ lo && hi ≤ r.base + r.length)

/-- Reason 03h (02 R50, R54; 08 R228). -/
def carryOk (s : State) (p : JobPlan) (raw : List Nat) : Bool :=
  let pads := p.carry.filter (fun r => !r.stack)
  let placed (r : CarryRegion) : Bool :=
    match placeOf r.base with
    | .stack n off => r.stack && off + r.length ≤ 64 * (stackAt s n).populated
    | .pad k off => !r.stack && off + r.length ≤ padSize && p.placement.contains k
    | _ => false
  let padK (r : CarryRegion) : Nat := (r.base - padBase) / padWindow
  raw.all carryFields && p.carry.all placed && !anyMeet (p.carry.map CarryRegion.range) &&
  pads.all (fun r => (pads.filter (fun q => padK q == padK r)).length ≤ 16 &&
    padCarryBytes p (padK r) ≤ (if rideThrough s then 0x2000000 else padSize)) &&
  (p.carry.filter (fun r => r.stack)).length ≤ 256 &&
  (!rideThrough s || (List.range 16).all (fun n => stackCarryBytes p n ≤ 0x300000000))

/-- A small configuration (04 R108). -/
def smallConfig (p : JobPlan) : Bool :=
  p.placement.length ≤ 8 && p.placement.all (fun k => k / 8 == p.placement.headD 0 / 8)

/-- Bytes of a task context area (04 R114). -/
def contextBytes : Nat := 0x660000

/-- Reason 04h for the streams of one cluster (04 R84, R88, R89). -/
def streamsOk (s : State) (p : JobPlan) (k : Nat) (raw : List Nat) : Bool :=
  let es := raw.map streamOf
  let base := padBase + k * padWindow
  let ctx := es.map (fun e => (base + 64 * e.context, base + 64 * e.context + contextBytes))
  let top := base + (if rideThrough s && 0 < padCarryBytes p k then secondBankOff p k else padSize)
  raw.all streamFields && p.placement.contains k && es.any (fun e => e.task == 0) &&
  (es.map (fun e => e.task)).eraseDups.length == es.length && (es.length ≤ 1 || smallConfig p) &&
  es.all (fun e => inRegion p (fun r => !r.stack && (r.base - padBase) / padWindow == k) (base + 64 * e.baseLine)
      (base + 64 * e.baseLine + 64 * e.lines) && e.entryPc < (e.lines - 1) * 4) &&
  (es.length ≤ 1 || (!anyMeet ctx &&
    ctx.all (fun c => c.2 ≤ top && p.carry.all (fun r => !(r.base < c.2 && c.1 < r.base + r.length)))))

/-- Reason 05h (04 R86). -/
def preloadOk (s : State) (p : JobPlan) (raw : List Nat) : Bool :=
  let ok (x : Preload) : Bool :=
    let n := 64 * x.lines
    (match placeOf x.src with
     | .stack m off => off + n ≤ 64 * (stackAt s m).populated &&
         (reserveLow s p m == 0 || x.src + n ≤ reserveLow s p m)
     | _ => false) &&
    inRegion p (fun r => !r.stack) x.dst (x.dst + n)
  raw.all preloadFields && p.preload.all ok && !anyMeet (p.preload.map (fun x => (x.dst, x.dst + 64 * x.lines)))

/-- Reason 06h for the backward descriptors of one cluster (06 R160). A descriptor whose task has no stream entry is refused with
it too (DESIGN CHOICE, log entry 72). -/
def backsOk (p : JobPlan) (k : Nat) (raw : List Nat) : Bool :=
  let base := padBase + k * padWindow
  let tasks := tget [] p.streams k
  raw.all backFields &&
  (raw.map backOf).all (fun b =>
    tasks.any (fun e => e.task == b.task) &&
    p.carry.any (fun r => !r.stack && r.mash && r.base == base + 64 * b.region && r.length == 64 * b.lines) &&
    inRegion p (fun r => r.stack && r.mash) b.spill (b.spill + 2 * b.se * mashLines b.mfmt * 64) &&
    b.pf + 2 ≤ ringCap b)

/-- The codes that a tree's nodes name as children. -/
def childCodes (t : Tree) : List Nat := t.nodes.flatMap (fun n => [n.left, n.right])
/-- Whether a node reaches the root by its parents in at most `fuel` steps. -/
def reachesRoot (t : Tree) : Nat → Nat → Bool
  | 0, i => i == 0
  | f + 1, i => i == 0 || (match t.nodes.findIdx? (fun n => n.left == i || n.right == i) with
      | some j => reachesRoot t f j
      | none => false)
/-- Whether a tree's lists form one tree (10 R279, Table 10.4). -/
def treeShape (t : Tree) : Bool :=
  let cs := childCodes t
  let once (c : Nat) : Bool := (cs.filter (fun x => x == c)).length == 1
  2 ≤ t.contrib.length && t.contrib.length ≤ 64 && t.nodes.length ≤ 63 &&
  (List.range t.contrib.length).all (fun i => once (0x40 + i)) &&
  (List.range t.nodes.length).all (fun i => i == 0 || once i) &&
  cs.length == t.contrib.length + (t.nodes.length - 1) &&
  (List.range t.nodes.length).all (reachesRoot t t.nodes.length)
/-- The destination bytes of a tree. -/
def treeRange (t : Tree) : Nat × Nat :=
  let lo := padBase + t.dcl * padWindow + 64 * t.first
  (lo, lo + 64 * t.lines)
/-- Whether a range touches carry. -/
def meetsCarry (p : JobPlan) (r : Nat × Nat) : Bool := p.carry.any (fun c => c.base < r.2 && r.1 < c.base + c.length)
/-- Whether the job holds a logical chiplet: it holds one of its clusters. -/
def chipletHeld (p : JobPlan) (m : Nat) : Bool := p.placement.any (fun k => k / 8 == m)

/-- Reason 07h (10 R279). -/
def treesOk (p : JobPlan) (raw : List (List Byte)) : Bool :=
  raw.all (treeReserved false) && p.trees.length ≤ 16 &&
  (p.trees.map (fun t => t.number)).eraseDups.length == p.trees.length &&
  p.trees.all (fun t => treeShape t && p.placement.contains t.dcl &&
    t.contrib.all (fun c => p.placement.contains c.1) && t.nodes.all (fun n => chipletHeld p n.host) &&
    !meetsCarry p (treeRange t)) &&
  !anyMeet (p.trees.map treeRange)

/-- Whether the two segment ports of this module's member of a ring are up with their peers. A module
without an ID carries no packet, and so serves no membership (11 R298; DEDUCED, log entry 76). -/
def segmentsUp (s : State) (r : Ring) : Bool :=
  let n := r.members.length
  let idAt (i : Nat) : Nat := (r.members.getD (i % n) (0, 0)).1
  let up (port peer : Nat) : Bool := portUp (portAt s port) && (portAt s port).peer.toNat == peer
  (List.range n).all (fun i =>
    let m := r.members.getD i (0, 0)
    m.1 != myModule s || (s.fab.moduleId != 0 && up (2 * m.2 + 1) (idAt (i + 1)) && up (2 * m.2) (idAt (i + n - 1))))

/-- Reason 08h (11 R306). -/
def ringsOk (s : State) (p : JobPlan) (raw : List (List Byte)) : Bool :=
  let all := p.rings.flatMap (fun r => r.members)
  raw.all (fun b => bitsAt (fieldAt b 0 4) 8 24 == 0) && p.rings.length ≤ 16 &&
  (p.rings.map (fun r => r.number)).eraseDups.length == p.rings.length &&
  p.rings.all (fun r => 2 ≤ r.members.length && segmentsUp s r) && all.eraseDups.length == all.length

/-- Reason 09h (11 R309). -/
def circuitsOk (p : JobPlan) (raw : List Nat) : Bool :=
  let ringAt (n : Nat) : Option Ring := p.rings.find? (fun r => r.number == n)
  let memberAt (n i : Nat) : Option (Nat × Nat) := (ringAt n).bind (fun r => r.members[i]?)
  let joins (a b : Leg) : Bool :=
    a.ring < b.ring && (match memberAt a.ring a.out, memberAt b.ring b.inn with
      | some x, some y => x.1 == y.1 && x.2 != y.2
      | _, _ => false)
  let ok (c : Circuit) : Bool :=
    let fst := c.legs.headD { ring := 0, inn := 0, out := 0 }
    let lst := c.legs.getLastD { ring := 0, inn := 0, out := 0 }
    c.number != 0 && c.modA < c.modB && 1 ≤ c.weight &&
    c.legs.all (fun l => (memberAt l.ring l.inn).isSome && (memberAt l.ring l.out).isSome) &&
    (c.legs.zip (c.legs.drop 1)).all (fun x => joins x.1 x.2) &&
    ((memberAt fst.ring fst.inn).map Prod.fst == some c.modA) && ((memberAt lst.ring lst.out).map Prod.fst == some c.modB)
  raw.all (fun v => bitsAt v 38 10 == 0 && v / 2 ^ 112 == 0 &&
    (List.range 4).all (fun i => bitsAt v (60 + 16 * i) 4 == 0)) &&
  (p.circuits.map (fun c => c.number)).eraseDups.length == p.circuits.length && p.circuits.all ok

/-- The module of a fabric tree's root. -/
def rootModule (t : Tree) : Nat := (t.nodes.headD { host := 0, rim := 0, left := 0, right := 0, circ := 0 }).host

/-- Reason 0Ah (11 R318): the conditions of R279, with clusters of this module held by the job. -/
def fabTreesOk (s : State) (p : JobPlan) (raw : List (List Byte)) : Bool :=
  let me := myModule s
  let here (t : Tree) : Bool := rootModule t == me
  raw.all (treeReserved true) && p.fabTrees.length ≤ 8 &&
  (p.fabTrees.map (fun t => t.number)).eraseDups.length == p.fabTrees.length &&
  p.fabTrees.all (fun t => treeShape t && (!here t || (p.placement.contains t.dcl && !meetsCarry p (treeRange t))) &&
    t.contrib.all (fun c => c.2.1 != me || p.placement.contains c.1)) &&
  !anyMeet ((p.fabTrees.map (fun t =>
    let o := rootModule t * 2 ^ 48
    (o + (treeRange t).1, o + (treeRange t).2))) ++
    (p.trees.map (fun t => (me * 2 ^ 48 + (treeRange t).1, me * 2 ^ 48 + (treeRange t).2))))

/-- Reason 0Bh (02 R41): the routing plan names other modules while no vote wait is set. -/
def membersOk (s : State) (p : JobPlan) : Bool :=
  let me := myModule s
  s.tick.cfg.voteWait != 0 ||
  (p.members.all (fun m => m == me) && p.rings.all (fun r => r.members.all (fun x => x.1 == me)) &&
   p.fabTrees.all (fun t => t.contrib.all (fun c => c.2.1 == me) && t.nodes.all (fun x => x.host == me)))

/-- Whether every byte of [lo, hi) lies in carry regions. -/
def coveredBy (p : JobPlan) (ok : CarryRegion → Bool) : Nat → Nat → Nat → Bool
  | 0, lo, hi => hi ≤ lo
  | f + 1, lo, hi => hi ≤ lo || (match p.carry.find? (fun r => ok r && r.base ≤ lo && lo < r.base + r.length) with
      | some r => coveredBy p ok f (r.base + r.length) hi
      | none => false)

/-- Reason 0Ch (12 R333). `n` is the number of logical chiplets. -/
def servingOk (p : JobPlan) (n : Nat) (raw : List Nat) : Bool :=
  let area (ok : CarryRegion → Bool) (a len : Nat) : Bool := coveredBy p ok p.carry.length a (a + len)
  let any (_ : CarryRegion) : Bool := true
  let ok (v : Nat) : Bool :=
    let q := planOf v
    let row := ceilDiv (q.vocab * logitBytes q) 64 * 64
    bitsAt v 180 4 == 0 && v / 2 ^ 475 == 0 && 1 ≤ q.slots && q.slots ≤ 1024 && 1 ≤ q.chunk && q.chunk ≤ 4096 &&
    (q.lfmt == 0 || q.lfmt == 1) && 2 ≤ q.vocab && q.vocab ≤ 262144 && 1 ≤ q.nf && 1 ≤ q.tpp && q.tpp ≤ 4096 &&
    1 ≤ q.nmin && q.nmin ≤ 64 && q.nmin ≤ n &&
    area any q.batch (2 * q.slots * 64) && area any q.tok (4 * q.slots * q.chunk) && area any q.logit (q.slots * row) &&
    area any q.ptab (1024 * q.slots) && area any q.flist (4 * q.nf) && area any q.home (256 * q.slots * 0x10000) &&
    area (fun r => r.stack) q.svc 0x4000000
  raw.all ok

/-- Reason 0Dh (02 R55; 08 R232, R234). -/
def copiesFit (s : State) (p : JobPlan) : Bool :=
  !rideThrough s ||
  (p.carry.all (fun r =>
      if r.stack then
        let n := r.base / stackWindow
        (partnerOf s n).isSome && (reserveLow s p n == 0 || r.base + r.length ≤ reserveLow s p n)
      else
        let k := (r.base - padBase) / padWindow
        (backingOf s (k / 8)).isSome && r.base + r.length ≤ padBase + k * padWindow + secondBankOff p k) &&
   (List.range 16).all (fun n => (reserveOf s p n).isSome))

/-- The first section of a per-cluster type that a condition concerns. -/
def badCluster (d : List Byte) (typ : Nat) (ok : Nat → List Nat → Bool) : Option Nat :=
  ((sections d).find? (fun x => x.typ == typ && !ok x.cl (sectNats d x))).map Sect.item

/-- The first reason of 01h and 03h to 0Dh that refuses a descriptor, with its item. The state is that in which the
job would start: stacks spared, and `n` logical chiplets. -/
def descriptorBad (s : State) (d : List Byte) (n : Nat) : Option (Nat × Nat) :=
  let p := jobPlanOf d
  let fails (ok : Bool) (reason typ : Nat) : Option (Nat × Nat) := if ok then none else some (reason, itemOf d typ)
  let streams : Option (Nat × Nat) :=
    match badCluster d 3 (streamsOk s p) with
    | some i => some (4, i)
    | none => if p.placement.all (fun k => (tfind p.streams k).isSome) then none else some (4, noItem)
  [fails (p.placement.all (fun k => k < 8 * n)) 1 1,
   fails (carryOk s p (natsOf d 2)) 3 2,
   streams,
   fails (preloadOk s p (natsOf d 0x0B)) 5 0x0B,
   (badCluster d 4 (backsOk p)).map (fun i => (6, i)),
   fails (treesOk p (bytesOf d 5)) 7 5,
   fails (ringsOk s p (bytesOf d 6)) 8 6,
   fails (circuitsOk p (natsOf d 7)) 9 7,
   fails (fabTreesOk s p (bytesOf d 8)) 0x0A 8,
   fails (membersOk s p) 0x0B (if (sectOf d 9).isSome then 9 else 6),
   fails (servingOk p n (natsOf d 0x0A)) 0x0C 0x0A,
   fails (copiesFit s p) 0x0D 2].findSome? id

end Sys2Proof.Machine
end

