-- ==== Sys2Proof/Machine/Estimate.lean ====
section
/-!
DEFINITION. The fast estimate of power: activity counts, rails, sites, halves and the module (spec 13 R343, R349 to R351, R355,
R356). Powers are in mW.
-/
namespace Sys2Proof.Machine
open Sys2Proof

/-! ### Gains (13 R351) -/

/-- A rail's gain before anything changed it. -/
def gainStart : Gain := { gain := 1, windows := 0 }
/-- The gain of a rail: of a site VCORE, VSRAM and VSEAM, of a rim die VSERDES, VRIM and VCASK. -/
def gainAt (s : State) (u rail : Nat) : Gain := tget gainStart s.power.gains (4 * u + rail)

/-! ### Means (13 R352, R356) -/

/-- What is metered of a limit or a unit at every control step: the demand of the estimate, its dynamic part, the measurement, and
the estimate that is shown. -/
inductive MeterKind where
  | demand | dynamic | measured | shown
deriving DecidableEq, Repr, Inhabited

/-- The number of a kind. -/
def MeterKind.code : MeterKind → Nat
  | .demand => 0
  | .dynamic => 1
  | .measured => 2
  | .shown => 3

/-- The samples of a meter, the newest first; 1 ms of them are kept. -/
def meterOf (s : State) (l : Nat) (kind : MeterKind) : List Int := tget [] s.power.meters (4 * l + kind.code)
/-- The newest sample. -/
def meterNow (s : State) (l : Nat) (kind : MeterKind) : Int := (meterOf s l kind).headD 0
/-- The mean of the newest samples, over as many control steps as there were, of a window at most. -/
def meterMean (s : State) (l : Nat) (kind : MeterKind) (window : Nat) : Int :=
  let xs := (meterOf s l kind).take window
  xs.foldl (· + ·) 0 / (xs.length : Int)
/-- One sample of each of some meters. -/
def meterAll (s : State) (xs : List (Nat × MeterKind × Int)) : State :=
  { s with power := { s.power with meters := xs.foldl (fun t x =>
      let key := 4 * x.1 + x.2.1.code
      tset t key ((x.2.2 :: tget [] t key).take 4000)) s.power.meters } }

/-! ### Rails (13 R350) -/

/-- The estimate of a rail: its dynamic part g A f V^2, and the static model. -/
structure Estimate where
  dyn    : Nat
  static : Nat
deriving DecidableEq, Repr

/-- The whole estimate. -/
def Estimate.total (e : Estimate) : Nat := e.dyn + e.static
/-- Two estimates together. -/
def Estimate.add (a b : Estimate) : Estimate := { dyn := a.dyn + b.dyn, static := a.static + b.static }
/-- Estimates together. -/
def sumEstimates (l : List Estimate) : Estimate := l.foldl Estimate.add { dyn := 0, static := 0 }

/-- The dynamic part of a rail: gain, activity, frequency in MHz and voltage in mV; the weights are such that the product over
10^12 is in mW. -/
def dynamicPart (g : Rat) (activity mhz mv : Nat) : Nat :=
  (g * (activity * mhz * mv ^ 2 : Nat) / (10 ^ 12 : Nat)).floor.toNat

/-- The weighed cycles of a cluster for a rail of its site. -/
def weighCycles (site rail : Nat) (a : ClusterActivity) : Nat :=
  (a.cycles ++ [(CycleKind.spin, a.spin)]).foldl (fun n c => n + Config.cycleWeight site rail c.1 * c.2) 0

/-- A count without the bubbles of a rate: a rate of r suppresses r of 64 issue cycles (13 R355, R356). At 64 nothing issues. -/
def unbubbled (rate n : Nat) : Nat := if rate < 64 then n * 64 / (64 - rate) else n

/-- The activity count of a site for a rail: the counts of its clusters, or their counts without the bubbles of the last step. -/
def activityCount (s : State) (c : ControlInputs) (site rail : Nat) (bare : Bool) : Nat :=
  (c.clusters.filter (fun a => clusterSite s a.k.val == some site)).foldl (fun n a =>
    let w := weighCycles site rail a
    n + (if bare then unbubbled (clusterAt s a.k.val).rate w else w)) 0

/-- The voltage of VSRAM and VSEAM, and of the rails of a rim die, in mV (13 Table 13.2). -/
def fixedMv : Nat := 750
def rimMv (rail : Nat) : Nat := if rail = 0 then 850 else if rail = 1 then 750 else 1050

/-- The estimate of VCORE (rail 0) or VSRAM (rail 1) of a site at the target frequency of the frame. -/
def coreEstimate (s : State) (c : ControlInputs) (r : SiteReading) (rail : Nat) (bare : Bool) : Estimate :=
  let u := r.s.val
  let mv := if rail = 0 then r.vcore else fixedMv
  { dyn := dynamicPart (gainAt s u rail).gain (activityCount s c u rail bare) s.power.clockNow.toNat mv
    static := Config.staticPower u rail mv r.junction }

/-- The estimate of a rail that does not follow the arithmetic clock, from its traffic count; its own clock is part of the
weight. -/
def trafficEstimate (s : State) (u rail count mv : Nat) (junction : Int) : Estimate :=
  { dyn := dynamicPart (gainAt s u rail).gain (Config.trafficWeight u rail * count) 1 mv
    static := Config.staticPower u rail mv junction }

/-- The three rails of a site. -/
def siteEstimate (s : State) (c : ControlInputs) (bare : Bool) (r : SiteReading) : Estimate :=
  sumEstimates [coreEstimate s c r 0 bare, coreEstimate s c r 1 bare, trafficEstimate s r.s.val 2 r.traffic fixedMv r.junction]
/-- The three rails of a rim die. -/
def rimEstimate (s : State) (r : RimReading) : Estimate :=
  let u := 72 + r.n.val
  sumEstimates [trafficEstimate s u 0 r.onSerdes (rimMv 0) r.junction, trafficEstimate s u 1 r.onRim (rimMv 1) r.junction,
    trafficEstimate s u 2 r.onCask (rimMv 2) r.junction]

/-- A half: its sites, its rim dies, and the loss of their conversion. -/
def halfEstimate (s : State) (c : ControlInputs) (bare : Bool) (h : Half) : Estimate :=
  let e := sumEstimates ((c.sites.filter (fun r => siteHalf r.s.val == h)).map (siteEstimate s c bare) ++
    (c.rims.filter (fun r => rimHalf r.n.val == h)).map (rimEstimate s))
  { e with static := e.static + Config.conversionLoss e.total }
/-- The module. -/
def moduleEstimate (s : State) (c : ControlInputs) (bare : Bool) : Estimate :=
  (halfEstimate s c bare .north).add (halfEstimate s c bare .south)

end Sys2Proof.Machine
end

