-- ==== Sys2Proof/Machine/Power.lean ====
section
/-!
DEFINITION. Power: limits and the actuator, calibration and divergence, energy, the clock switch, trips and warnings
(spec 13; 04 R107).
-/
namespace Sys2Proof.Machine
open Sys2Proof

/-! ### The variant (00 Table 0.1, 13 R366, R367) -/

def Variant.ceilingMhz : Variant → Nat
  | .x => 850
  | .m => 765
  | .q => 680
def Variant.capW : Variant → Nat
  | .x => 24000
  | .m => 19000
  | .q => 15000
def Variant.floorMhz : Variant → Nat
  | .x => 720
  | .m => 645
  | .q => 575
/-- The minimum flow in 0.1 L/min. -/
def Variant.minFlow : Variant → Nat
  | .x => 360
  | .m => 285
  | .q => 240
def Variant.code : Variant → Nat
  | .x => 0
  | .m => 1
  | .q => 2

/-- The fused cap. -/
def capW (s : State) : Nat := s.fuse.variant.capW

/-! ### The clock (13 R345 to R348, R366) -/

/-- The clock that the settings select: the floor in floor mode. -/
def clockWanted (s : State) : Nat :=
  if s.power.floorMode = 1#8 then s.fuse.variant.floorMhz else s.power.clock.toNat

/-- The half of a site that has tripped (13 R342). -/
def halfTripped (s : State) (h : Half) : Bool := if h = .north then s.power.trippedN else s.power.trippedS

/-- Whether VCORE and VSRAM of a site are on: not of a dark site, of one whose compute domain is retired (`SiteState.forwardOnly`),
in Quiet, or in a tripped half (13 R342, R343, Table 13.6). -/
def coreOn (s : State) (n : Nat) : Bool :=
  (siteAt s n).state != .dark && (siteAt s n).state != .forwardOnly && s.power.state != .quiet && !halfTripped s (siteHalf n)
/-- Whether VSEAM of a site is on: not of a dark site. -/
def seamOn (s : State) (n : Nat) : Bool := (siteAt s n).state != .dark && !halfTripped s (siteHalf n)

/-- Whether VCORE of a site is held at retention: an idle slate, a site in reset, and Park (13 R343, Table 13.6). -/
def coreHeld (s : State) (n : Nat) : Bool :=
  (siteAt s n).state == .slateIdle || (siteAt s n).state == .computeReset || s.power.state == .park
/-- The set point of VCORE in mV: off, retention, or the fused table at the clock in effect. -/
def coreSetPoint (s : State) (n : Nat) : Nat :=
  if !coreOn s n then 0 else if coreHeld s n then 550 else Config.coreVoltage n s.power.clockNow.toNat

/-- The sites whose VCORE follows the clock: neither idle slates, nor in reset, retired or dark. -/
def vcoreSites (s : State) : List Nat := (List.range 72).filter (fun n => (siteAt s n).state == .running)

/-- Whether VCORE has reached the new voltage on every site; a lower clock needs no rise. -/
def voltageReady (s : State) (f : Nat) : Bool :=
  f ≤ s.power.clockNow.toNat || (vcoreSites s).all (fun n => s.power.ramped.contains n)

/-- The clock switch at a committing tick (13 Table 13.3): it waits for the voltage, uncounted; a droop aborts it. -/
def switchClock (s : State) : State :=
  match s.power.switchDue with
  | none => s
  | some f =>
    if s.power.droopSeen then
      { s with power := { s.power with aborts := s.power.aborts + 1 } }
    else if voltageReady s f then
      { s with power := { s.power with clockNow := BitVec.ofNat 16 f, switchDue := none, ramped := []
                                       changes := s.power.changes + 1 } }
    else s

/-- The switch that settings in effect call for. -/
def planSwitch (s : State) : State :=
  let f := clockWanted s
  { s with power := { s.power with switchDue := if f = s.power.clockNow.toNat then none else some f } }

/-- VCORE_RAMP_DONE (13 R346). -/
def execVcoreRampDone (n : Site) (s : State) : Host.Outcome State Fault Refusal :=
  .next { s with power := { s.power with ramped := setInsert n.val s.power.ramped } }

/-! ### Budget and ceiling (13 R353, R354, R358) -/

/-- The power ceiling in W of the commanded power state (13 R353, Table 13.6). -/
def stateCeiling (s : State) : Nat :=
  match s.power.command.toNat with
  | 1 => 6000
  | 2 => 3000
  | 3 => 2000
  | _ => capW s

/-- Whether the rack budget is selected. -/
def budgetSelected (s : State) : Bool := s.power.limitMode.getLsbD 1

/-- The effective budget B. -/
def effectiveBudget (s : State) : Nat :=
  let rack := if s.power.onFallback then s.power.fallback.toNat else s.power.budget.toNat
  let base := min (capW s) (stateCeiling s)
  if budgetSelected s && rack != 0 then min rack base else base

/-- The half input limit as module power: 280 A at each measured input voltage. -/
def halfLimit (s : State) : Nat := 280 * (s.power.voltNorth.toNat + s.power.voltSouth.toNat) / 1000

/-- The hints that stand. -/
def hints (s : State) : List (Nat × Boil) := s.clusters.filterMap (fun c => c.2.boil.map (fun b => (c.1, b)))

/-- Whether the span of a hint covers the frame j frames ahead. -/
def Boil.covers (b : Boil) (j : Nat) : Bool := b.ahead ≤ j && j < b.ahead + b.left

/-- The full-activity power of a cluster in mW at the target frequency (13 R358): VCORE and VSRAM of its site. -/
def fullPower (s : State) (k : Nat) : Nat :=
  match clusterSite s k with
  | none => 0
  | some n =>
    dynamicPart (gainAt s n 0).gain (Config.fullActivity n 0) s.power.clockNow.toNat (coreSetPoint s n) +
    dynamicPart (gainAt s n 1).gain (Config.fullActivity n 1) s.power.clockNow.toNat fixedMv

/-- The forecast in mW for the frame j frames ahead: the present estimate, with the power of every hinted cluster replaced over
its span by LEVEL fifteenths of its full-activity power (13 R358). -/
def forecastAt (s : State) (j : Nat) : Nat :=
  ((hints s).foldl (fun (p : Int) h =>
    if h.2.covers j then p - tget 0 s.power.present h.1 + (h.2.level * fullPower s h.1 / 15 : Nat) else p)
    (meterNow s 0 .shown)).toNat

/-- The ceiling that hints leave a frame at its begin, out of a budget B (13 R354). The window is the 100 ms that end with the
last hinted frame: of it, the past as it was measured, and the frames from the one that begins. In a hinted frame the
ceiling is raised where the forecast stays within B; a frame of the window that no hint covers has what leaves the window's mean
at B. DEDUCED, log entry 78. -/
def hintedCeiling (s : State) (b : Nat) (hs : List (Nat × Boil)) : Nat :=
  let period := s.tick.cfg.period.toNat
  let span := hs.foldl (fun n h => max n (h.2.ahead + h.2.left)) 0
  let frames := 100000 / period
  let hinted (j : Nat) : Bool := hs.any (fun h => h.2.covers j)
  let ahead := (List.range span).filter (fun j => span - frames ≤ j)
  let past := (s.power.inputLog.take ((frames - span) * period / 10)).foldl (fun n e => n + 1000 * e) 0
  let room := 1000 * b * frames * period
  if hinted 0 then
    if ahead.foldl (fun n j => n + forecastAt s j * period) past ≤ room then min (6 * b / 5) (min (capW s) (halfLimit s)) else b
  else if span ≤ frames then
    let spent := ahead.foldl (fun n j => if hinted j then n + forecastAt s j * period else n) past
    min b ((room - spent) / (1000 * period * (ahead.filter (fun j => !hinted j)).length))
  else b

/-- The ceiling of a frame at its begin: what hints leave of the effective budget, less the excess of the last 100 ms window. -/
def frameCeiling (s : State) : Nat :=
  let b := s.power.effective.toNat
  let hs := hints s
  (if hs.isEmpty then b else hintedCeiling s b hs) - s.power.excess

/-- The ceiling set at a frame's begin. -/
def beginCeiling (s : State) : State :=
  { s with power := { s.power with ceiling := BitVec.ofNat 32 (frameCeiling s) } }

/-- A hint at a commit: the frames to its span fall by one; past the span it expires. -/
def ageHint (b : Boil) : Option Boil :=
  if 0 < b.ahead then some { b with ahead := b.ahead - 1 }
  else if 1 < b.left then some { b with left := b.left - 1 }
  else none

/-- A posted hint as it is delivered: its count starts at the frame now begun. LEVEL 0 withdraws. -/
def deliverHint (b : Boil) : Option Boil := if b.level = 0 then none else some { b with ahead := b.ahead - 1 }

/-- The hints at a commit (04 R107). -/
def deliverHints (s : State) : State :=
  mapClusters s (fun _ c => { c with
    boil := match c.boilPost with
      | some b => deliverHint b
      | none => c.boil.bind ageHint
    boilPost := none })

/-- The first of the greatest entries of a list, with its place. -/
def greatest : List Nat → Nat × Nat
  | [] => (0, 0)
  | x :: r => if (greatest r).1 ≤ x then (x, 0) else ((greatest r).1, (greatest r).2 + 1)

/-- The peak of the forecast and its offset (13 R358). -/
def forecastPeak (s : State) : State :=
  let top := if (hints s).isEmpty then (forecastAt s 0, 0) else greatest ((List.range 256).map (forecastAt s))
  { s with power := { s.power with peak := BitVec.ofNat 32 (top.1 / 1000), peakAt := BitVec.ofNat 8 top.2 } }

/-! ### The actuator (13 R355 to R357, R368) -/

/-- The rate that one limit asks for: demand, ceiling and dynamic part in mW. -/
def wantedRate (demand ceiling dyn : Nat) : Nat :=
  if demand ≤ ceiling then 0 else if dyn = 0 then 57 else ceilDiv (64 * (demand - ceiling)) dyn

/-- The rate that a limit takes: at most 56, falling by at most 4. -/
def takenRate (last want : Nat) : Nat := max (min want 56) (last - 4)

/-- A value lowered by 5% during a divergence event (13 R359). -/
def lowered (frozen : Bool) (v : Nat) : Nat := if frozen then v * 95 / 100 else v

/-- The demand of a limit over its window: the estimate without the bubbles of the last step, or during a divergence event the
measurement; and the dynamic part of the estimate (13 R356, R359). -/
def demandOf (s : State) (l window : Nat) : Int :=
  meterMean s l (if s.power.frozen then .measured else .demand) window
def dynamicOf (s : State) (l window : Nat) : Nat := (meterMean s l .dynamic window).toNat

/-- One limit: its key, its wanted rate and the sites on whose clusters it acts. -/
structure Limit where
  key   : Nat
  want  : Nat
  sites : List Nat
deriving DecidableEq, Repr

/-- The window of the per-rail limits in control steps of 0.25 µs; during a divergence event at least 20 µs (13 R352, R359). -/
def railSteps (s : State) : Nat :=
  4 * (if s.power.frozen then max 20 s.power.railWindow.toNat else s.power.railWindow.toNat)

/-- The limits of one site: per rail, and thermal over 10 µs (13 R352, R368). Current in A times voltage in mV gives mW. -/
def siteLimits (s : State) (r : SiteReading) : List Limit :=
  let p := s.power
  let rail (key ceiling : Nat) : Limit :=
    { key := key, sites := [r.s.val]
      want := wantedRate (demandOf s key (railSteps s)).toNat (lowered p.frozen ceiling) (dynamicOf s key (railSteps s)) }
  let heat := meterMean s (300 + r.s.val) .measured 40
  (if p.limitMode.getLsbD 0 then
    [rail (100 + r.s.val) (p.coreLimit.toNat * r.vcore), rail (200 + r.s.val) (p.sramLimit.toNat * fixedMv)] else []) ++
  [{ key := 300 + r.s.val, want := if heat ≤ 1050 then 0 else ceilDiv (64 * (heat - 1050).toNat) 10, sites := [r.s.val] }]

/-- The limits of the module, over 1 ms, and of its halves, over 5 µs (13 R352). The estimate of the budget is corrected by the
input measurement. -/
def moduleLimits (s : State) : List Limit :=
  let f := s.power.frozen
  let demand := demandOf s 0 4000 + (if f then 0 else s.power.correction)
  let budget := wantedRate demand.toNat (lowered f (1000 * s.power.ceiling.toNat)) (dynamicOf s 0 4000)
  let half (key : Nat) (h : Half) (volt : Nat) : Limit :=
    { key := key, want := wantedRate (demandOf s key 20).toNat (lowered f (280 * volt)) (dynamicOf s key 20)
      sites := (List.range 72).filter (fun n => siteHalf n == h) }
  [{ key := 0, want := if budgetSelected s then budget else 0, sites := List.range 72 },
   { key := 1, want := budget, sites := List.range 72 },
   half 2 .north s.power.voltNorth.toNat, half 3 .south s.power.voltSouth.toNat]

/-- The hottest of a list of readings. -/
def hottestOf : List (Nat × Int) → Option (Nat × Int)
  | [] => none
  | x :: r =>
    match hottestOf r with
    | none => some x
    | some y => some (if x.2 < y.2 then y else x)

/-- The mean over 1 ms of an estimate or a measurement in mW, in W. -/
def shownWatts (s : State) (l : Nat) (kind : MeterKind) : Nat := (meterMean s l kind 4000).toNat / 1000

/-- What a control step reports of a site; a rail that is off carries nothing (13 R343). -/
def readSite (s : State) (r : SiteReading) : State :=
  let on := coreOn s r.s.val
  modSite s r.s.val (fun x => { x with
    vcore := if on then BitVec.ofNat 16 r.vcore else 0
    iCore := if on then BitVec.ofNat 32 r.iCore else 0
    iSram := if on then BitVec.ofNat 32 r.iSram else 0
    iSeam := if seamOn s r.s.val then BitVec.ofNat 32 r.iSeam else 0
    estPower := BitVec.ofNat 16 (shownWatts s (400 + r.s.val) .shown), junction := r.junction })

/-- What a control step reports of a rim die. -/
def readRim (s : State) (r : RimReading) : State :=
  { s with power := { s.power with
    rimPower := tset s.power.rimPower r.n.val (BitVec.ofNat 16 r.serdes, BitVec.ofNat 16 r.rim, BitVec.ofNat 16 r.cask)
    rimJunction := tset s.power.rimJunction r.n.val r.junction } }

/-- Counters of one engine raised by an activity report. -/
def addStalls (c : Cluster) (l : List (Engine × Nat)) : Cluster :=
  l.foldl (fun c x => c.modEngine (engineCode x.1) (fun e => { e with stalls := e.stalls + BitVec.ofNat 64 x.2 })) c
def addMisses (c : Cluster) (l : List (MSel × Nat)) : Cluster :=
  l.foldl (fun c x => c.modEngine (engineCode (.m x.1)) (fun e => { e with misses := e.misses + BitVec.ofNat 64 x.2 })) c

/-- What a control step's activity adds to a cluster's cycle counters. -/
def countActivity (s : State) (a : ClusterActivity) : State :=
  if (tfind s.clusters a.k.val).isNone then s
  else modCluster s a.k.val (fun c =>
    let c := addMisses (addStalls c a.stalls) a.misses
    { c with
      spin := c.spin + BitVec.ofNat 64 a.spin
      bubbles := c.bubbles + BitVec.ofNat 64 a.bubbles
      stalls := c.stalls + BitVec.ofNat 64 a.issue
      wtWaits := c.wtWaits + BitVec.ofNat 64 a.wtWaits
      mashWaits := c.mashWaits + BitVec.ofNat 64 a.mashWaits })

/-- The flow estimate in 0.1 L/min: power over 3.98 kJ per litre-kelvin and the temperature rise; none at 5 kW or
less, and none without a rise (13 R367). -/
def flowEstimate (watts : Nat) (inlet outlet : Int) : Option Nat :=
  if watts ≤ 5000 || outlet ≤ inlet then none else some (watts * 6000 / (3980 * (outlet - inlet).toNat))

/-- Whether a flow is below 5/6 of the variant's minimum. -/
def flowLow (s : State) (flow : Nat) : Bool := 6 * flow < 5 * s.fuse.variant.minFlow

/-- The measured power of the rails of a site in mW. -/
def siteRails (r : SiteReading) : Nat := (r.iCore * r.vcore + (r.iSram + r.iSeam) * fixedMv) / 1000

/-- The measured power of the rails of a half in mW. -/
def measuredRails (c : ControlInputs) (h : Half) : Nat :=
  (c.sites.filter (fun r => siteHalf r.s.val == h)).foldl (fun n r => n + siteRails r) 0 +
  (c.rims.filter (fun r => rimHalf r.n.val == h)).foldl (fun n r => n + 1000 * (r.serdes + r.rim + r.cask)) 0

/-- The measured input power of a half in mW. -/
def measuredInput (c : ControlInputs) (h : Half) : Nat :=
  if h = .north then c.ampNorth * c.voltNorth / 1000 else c.ampSouth * c.voltSouth / 1000

/-- A unit under no watch. -/
def divStart : DivRec := { high := 0, clear := 0, inEvent := false, railBad := false }

/-- Whether the rails of a unit are under a verdict of rail measurement. -/
def railsReplaced (s : State) (u : Nat) : Bool :=
  let d := tget divStart s.power.divs u
  d.inEvent && d.railBad

/-- The measurements of VCORE and VSRAM of a site in mW: their own, or under a verdict of rail measurement a division, not stated,
of the converted input of the half less every other measured rail of it (13 R359). Log entry 78. -/
def coreMeasured (s : State) (c : ControlInputs) (r : SiteReading) : Nat × Nat :=
  let h := siteHalf r.s.val
  if railsReplaced s r.s.val then
    let whole := Config.converted (measuredInput c h) - (measuredRails c h - siteRails r)
    let core := Config.railShare r.s.val 0 whole % (whole + 1)
    (core, Config.railShare r.s.val 1 whole % (whole - core + 1))
  else (r.iCore * r.vcore / 1000, r.iSram * fixedMv / 1000)

/-- A site's rails, its junction and its estimate metered. -/
def meterSite (c : ControlInputs) (s : State) (r : SiteReading) : State :=
  let n := r.s.val
  let core := coreEstimate s c r 0 true
  let sram := coreEstimate s c r 1 true
  let now := coreMeasured s c r
  meterAll s [(100 + n, .demand, core.total), (100 + n, .dynamic, core.dyn), (100 + n, .measured, now.1),
    (200 + n, .demand, sram.total), (200 + n, .dynamic, sram.dyn), (200 + n, .measured, now.2),
    (300 + n, .measured, r.junction), (400 + n, .shown, (siteEstimate s c false r).total)]

/-- The module's and the halves' power metered. -/
def meterModule (s : State) (c : ControlInputs) : State :=
  let m := moduleEstimate s c true
  let a := halfEstimate s c true .north
  let b := halfEstimate s c true .south
  meterAll s [(0, .demand, m.total), (0, .dynamic, m.dyn), (0, .measured, 1000 * c.inputPower), (0, .shown, (moduleEstimate s c false).total),
    (2, .demand, a.total), (2, .dynamic, a.dyn), (2, .measured, measuredInput c .north),
    (3, .demand, b.total), (3, .dynamic, b.dyn), (3, .measured, measuredInput c .south)]

/-- The power of a cluster as its activity shows it, for forecasts. -/
def meterCluster (c : ControlInputs) (s : State) (a : ClusterActivity) : State :=
  match clusterSite s a.k.val with
  | none => s
  | some n =>
    let mv := ((c.sites.find? (fun r => r.s.val == n)).map SiteReading.vcore).getD (siteAt s n).vcore.toNat
    let mw := dynamicPart (gainAt s n 0).gain (weighCycles n 0 a) s.power.clockNow.toNat mv +
      dynamicPart (gainAt s n 1).gain (weighCycles n 1 a) s.power.clockNow.toNat fixedMv
    { s with power := { s.power with present := tset s.power.present a.k.val mw } }

/-- What a control step meters, before it changes a rate. -/
def takeMeters (s : State) (c : ControlInputs) : State :=
  c.clusters.foldl (meterCluster c) (c.sites.foldl (meterSite c) (meterModule s c))

/-- The readings of a control step. -/
def takeReadings (s : State) (c : ControlInputs) : State :=
  let s := c.clusters.foldl countActivity s
  let s := c.sites.foldl readSite s
  let s := c.rims.foldl readRim s
  let hot := hottestOf (c.sites.map (fun r => (r.s.val, r.junction)) ++ c.rims.map (fun r => (72 + r.n.val, r.junction)))
  let flow := flowEstimate c.inputPower c.inlet c.outlet
  { s with power := { s.power with
    voltNorth := BitVec.ofNat 16 c.voltNorth, voltSouth := BitVec.ofNat 16 c.voltSouth
    ampNorth := BitVec.ofNat 32 c.ampNorth, ampSouth := BitVec.ofNat 32 c.ampSouth
    inPower := BitVec.ofNat 32 (shownWatts s 0 .measured), estPower := BitVec.ofNat 32 (shownWatts s 0 .shown)
    inlet := c.inlet, outlet := c.outlet
    hottest := (hot.map Prod.snd).getD s.power.hottest
    hotUnit := (hot.map (fun h => BitVec.ofNat 8 h.1)).getD s.power.hotUnit
    flow := (flow.map (BitVec.ofNat 16)).getD s.power.flow
    warnings :=
      let w := if c.inlet ≤ 450 then s.power.warnings &&& 0xFD else s.power.warnings
      match flow with
      | some v => if flowLow s v then w else w &&& 0xFE
      | none => w } }

/-- The effective budget at a control step; one that falls lowers the ceiling of the frame at once (13 R353, R354). -/
def takeBudget (s : State) : State :=
  let b := effectiveBudget s
  { s with power := { s.power with
    ceiling := if b < s.power.effective.toNat then BitVec.ofNat 32 (min b s.power.ceiling.toNat) else s.power.ceiling
    effective := BitVec.ofNat 32 b } }

/-- The rates of a control step applied: each cluster takes the largest rate that concerns it, or its site's droop
rate where that is higher. -/
def applyRates (s : State) (ls : List Limit) : State :=
  let taken := ls.map (fun l => (l, takenRate (tget 0 s.power.rates l.key) l.want))
  let rateOfSite (n : Nat) : Nat :=
    max (taken.foldl (fun m t => if t.1.sites.contains n then max m t.2 else m) 0) (siteAt s n).droopRate
  let s := mapClusters s (fun k c =>
    match clusterSite s k with
    | some n => { c with rate := rateOfSite n }
    | none => c)
  let s := modSites s (List.range 72) (fun n r => { r with bubble := rateOfSite n })
  let missed := ls.any (fun l => 56 < l.want)
  let hot := taken.any (fun t => 300 ≤ t.1.key && 0 < t.2)
  let broken := s.power.floorMode == 1#8 && s.power.effective.toNat < capW s && taken.any (fun t => t.1.key ≤ 1 && 0 < t.2)
  { s with power := { s.power with
    rates := taken.foldl (fun t x => tset t x.1.key x.2) s.power.rates
    notMet := if missed then s.power.notMet + 1 else s.power.notMet
    warnings := if hot then s.power.warnings ||| 4 else s.power.warnings &&& 0xFB
    floorBroken := if broken then s.power.floorBroken + 1 else s.power.floorBroken } }

/-- CONTROL_STEP (13 R350 to R356, R368). -/
def execControlStep (c : ControlInputs) (s : State) : Host.Outcome State Fault Refusal :=
  let s := takeBudget (takeReadings (takeMeters s c) c)
  .next (forecastPeak (applyRates s (moduleLimits s ++ c.sites.flatMap (siteLimits s))))

/-- DROOP_TRIP (13 R348, R357): the rate of the site rises; in the drain window no bubble takes effect, and a clock
switch that is due is aborted. A tick edge is one command: a trip within steps 2 to 4 of Table 13.3 of an edge that
does not wait for a census or a vote stands before it, with `relock`. DESIGN CHOICE, log entry 9. -/
def execDroopTrip (n : Site) (level : Fin 2) (relock : Bool) (s : State) : Host.Outcome State Fault Refusal :=
  let rate := if level.val = 0 then 32 else 64
  let drain := s.tick.phase != .idle || relock
  let s := modSite s n.val (fun r => { r with droops := r.droops + 1, droopRate := if drain then r.droopRate else max r.droopRate rate })
  let s := { s with power := { s.power with
    droops := s.power.droops + 1, droopSeen := s.power.droopSeen || drain } }
  .next (if drain then s else mapClusters s (fun k c => if clusterSite s k = some n.val then { c with rate := max c.rate rate } else c))

/-- DROOP_HOLD_EXPIRY (13 R357): 128 cycles after the last trip; the limits' rates remain. -/
def execDroopHoldExpiry (n : Site) (s : State) : Host.Outcome State Fault Refusal :=
  let s := modSite s n.val (fun r => { r with droopRate := 0 })
  let base (r : Nat) : Nat := tget 0 s.power.rates r
  let half := if siteHalf n.val = .north then 2 else 3
  let rate := [base 0, base 1, base half, base (100 + n.val), base (200 + n.val), base (300 + n.val)].foldl max 0
  .next (mapClusters s (fun k c => if clusterSite s k = some n.val then { c with rate := rate } else c))

/-! ### Calibration and divergence (13 R351, R359, R364) -/

/-- The number of a unit among sites and rim dies. -/
def unitIndex : UnitId → Nat
  | .site n => n.val
  | .rim n => 72 + n.val
  | .maltster _ => 88
  | .module => 89

/-- The half of a unit index. -/
def indexHalf (u : Nat) : Half := if u < 72 then siteHalf u else rimHalf (u - 72)

/-- Whether a rail is off, or VCORE in retention. -/
def railAbsent (s : State) (r : RailWindow) : Bool :=
  match r.unit with
  | .site n => if r.rail.val = 2 then !seamOn s n.val else !coreOn s n.val || (r.rail.val = 0 && coreHeld s n.val)
  | .rim n => halfTripped s (rimHalf n.val)
  | _ => false

/-- Whether a rail is skipped in a window. -/
def railSkipped (s : State) (c : CalibrationInputs) (r : RailWindow) : Bool :=
  c.clockSwitch || r.absent || railAbsent s r || r.m < 10000

/-- A gain within its bounds. -/
def clampGain (g : Rat) : Rat := if g < 1 / 2 then 1 / 2 else if 2 < g then 2 else g

/-- One rail's window: its gain moves unless calibration is frozen. With an estimate of 0 the spec states no new gain:
a free value within the bounds. -/
def calibrateRail (c : CalibrationInputs) (s : State) (r : RailWindow) : State :=
  if railSkipped s c r then s
  else
    let u := unitIndex r.unit
    let g := gainAt s u r.rail.val
    let d := drawNat s
    let s := if r.e = 0 then d.2 else s
    let next : Rat :=
      if s.power.frozen then g.gain
      else if r.e = 0 then (2048 + (d.1 % 6145 : Nat) : Rat) / 4096
      else clampGain (g.gain * (1 + ((r.m : Int) - (r.e : Int) : Int) / (2 * (r.e : Rat))))
    { s with power := { s.power with
      gains := tset s.power.gains (4 * u + r.rail.val) { gain := next, windows := g.windows + 1 } } }

/-- The rails of a unit that are summed for its divergence: VCORE and VSRAM of a site, the three of a rim die. -/
def unitRails (c : CalibrationInputs) (u : Nat) : List RailWindow :=
  c.rails.filter (fun r => unitIndex r.unit == u && (72 ≤ u || r.rail.val < 2))

/-- The d of a unit in 0.1%, rounded down, with its exact comparison values (magnitude of e - m, and m). None where a
rail is skipped, or in the three windows after a start of its gains. -/
def unitDivergence (s : State) (c : CalibrationInputs) (u : Nat) : Option (Nat × Nat) :=
  let rs := unitRails c u
  if rs.isEmpty || rs.any (fun r => railSkipped s c r || (gainAt s u r.rail.val).windows < 3) then none
  else
    let m := rs.foldl (fun n r => n + r.m) 0
    let e := rs.foldl (fun n r => n + r.e) 0
    some (max m e - min m e, m)

/-- Whether a half's converted input and the sum of its measured rails agree within 3% of the input. -/
def inputAgrees (c : CalibrationInputs) (h : Half) : Bool :=
  let a := if h = .north then c.inputNorth else c.inputSouth
  let b := if h = .north then c.railsNorth else c.railsSouth
  100 * (max a b - min a b) ≤ 3 * a

/-- A unit's watch after a window that counts. -/
def watchUnit (c : CalibrationInputs) (u : Nat) (w : DivRec) (d : Nat × Nat) : DivRec :=
  let high := if 12 * d.2 < 100 * d.1 then w.high + 1 else 0
  let clear := if 100 * d.1 ≤ 8 * d.2 then w.clear + 1 else 0
  if !w.inEvent && 3 ≤ high then { high := high, clear := 0, inEvent := true, railBad := !inputAgrees c (indexHalf u) }
  else { w with high := high, clear := clear }

/-- Every unit's watch, and the largest d of the window. -/
def watchAll (c : CalibrationInputs) (s : State) : State :=
  let before := s
  let s := (List.range 88).foldl (fun s u =>
    match unitDivergence before c u with
    | none => s
    | some d => { s with power := { s.power with divs := tset s.power.divs u (watchUnit c u (tget divStart s.power.divs u) d) } }) s
  let ds := (List.range 88).filterMap (fun u => (unitDivergence before c u).map (fun d => 1000 * d.1 / d.2))
  { s with power := { s.power with divMax := BitVec.ofNat 16 (ds.foldl max 0) } }

/-- The divergence event after a window: its start, its verdicts, its end. -/
def judgeEvent (s : State) : State :=
  let evs := s.power.divs.filter (fun d => d.2.inEvent)
  if evs.isEmpty then s
  else if s.power.frozen && evs.all (fun d => 10 ≤ d.2.clear) then
    { s with power := clearDivergence s.power }
  else
    let est := evs.any (fun d => !d.2.railBad)
    let rail := evs.any (fun d => d.2.railBad)
    { s with power := { s.power with
      divEvents := if s.power.frozen then s.power.divEvents else s.power.divEvents + 1
      divUnit := if s.power.frozen then s.power.divUnit else BitVec.ofNat 8 ((evs.head?.map Prod.fst).getD 0xFF)
      divState := if est && rail then 3 else if rail then 2 else 1
      frozen := true
      energyFlag := s.power.energyFlag ||| (if jobHeld s then 3 else 1) } }

/-- The correction of the module's estimate by the input measurement, over the last 1 ms (13 R352). -/
def correctEstimate (s : State) : State :=
  { s with power := { s.power with correction := meterMean s 0 .measured 4000 - meterMean s 0 .shown 4000 } }

/-- CALIBRATION_WINDOW (13 R351, R352, R359, R364). -/
def execCalibrationWindow (c : CalibrationInputs) (s : State) : Host.Outcome State Fault Refusal :=
  let s := correctEstimate s
  let s := watchAll c s
  let s := c.rails.foldl (calibrateRail c) s
  let s := judgeEvent s
  .next (if jobHeld s && !(c.inRangeNorth && c.inRangeSouth) then
    { s with power := { s.power with energyFlag := s.power.energyFlag ||| 2 } } else s)

/-! ### Energy (13 R354, R362, R363) -/

/-- The 100 ms mean of the measured input, whose 10 µs samples are kept for forecasts: where a window's mean exceeds B, the next window's frames are lowered by
the excess. -/
def meanWindow (s : State) (uj : Nat) : State :=
  let s := { s with power := { s.power with inputLog := (uj :: s.power.inputLog).take 10000 } }
  let sum := s.power.meanSum + uj
  if s.power.meanN + 1 < 10000 then { s with power := { s.power with meanSum := sum, meanN := s.power.meanN + 1 } }
  else { s with power := { s.power with meanSum := 0, meanN := 0, excess := sum / 100000 - s.power.effective.toNat } }

/-- ENERGY_INTEGRATION: the energy of each half over 10 µs, in microjoules. -/
def execEnergyIntegration (north south : Nat) (s : State) : Host.Outcome State Fault Refusal :=
  let e := north + south
  let life := s.power.lifeEnergy.toNat + e
  let frac := s.power.jobFrac + e
  let s := { s with power := { s.power with
    lifeEnergy := BitVec.ofNat 64 life
    lifeWraps := s.power.lifeWraps + BitVec.ofNat 32 (life / 2 ^ 64)
    jobFrac := if jobHeld s then frac % 1000 else s.power.jobFrac
    jobEnergy := if jobHeld s then s.power.jobEnergy + BitVec.ofNat 64 (frac / 1000) else s.power.jobEnergy } }
  .next (meanWindow s e)

/-- LIFETIME_ENERGY_SAVE: every 60 s, to both boot flash devices. -/
def execLifetimeEnergySave (s : State) : Host.Outcome State Fault Refusal :=
  .next { s with power := { s.power with savedLife := s.power.lifeEnergy, savedWraps := s.power.lifeWraps } }

/-! ### Warnings, timeouts and trips -/

/-- LOW_FLOW_WARNING (13 R367): the estimate has been below the threshold for 1 s. -/
def execLowFlowWarning (flow : Nat) (s : State) : Host.Outcome State Fault Refusal :=
  .next (if flowLow s flow then
    { s with power := { s.power with flow := BitVec.ofNat 16 flow, warnings := s.power.warnings ||| 1 } } else s)

/-- INLET_ABOVE_45C (13 R368). -/
def execInletAbove45C (tenths : Int) (s : State) : Host.Outcome State Fault Refusal :=
  .next (if 450 < tenths then
    { s with power := { s.power with inlet := tenths, warnings := s.power.warnings ||| 2 } } else s)

/-- BUDGET_TIMEOUT (13 R353): 2430h:02h milliseconds without a write, while the rack budget is selected. -/
def execBudgetTimeout (s : State) : Host.Outcome State Fault Refusal :=
  .next (if budgetSelected s && s.power.timeout != 0 then
    { s with power := { s.power with onFallback := true, timeouts := s.power.timeouts + 1 } } else s)

/-- The bit of a trip cause in 2400h:07h. -/
def tripBit : TripCause → Nat
  | .undervoltage => 0
  | .overvoltage => 1
  | .overcurrent => 2
  | .overtemperature => 3
  | .converter => 4
  | .inlet => 5

/-- A half's memory after its rails were off: every byte takes a new free value. -/
def spoilHalf (s : State) (h : Half) : State :=
  let keep (cs : List Host.Cell) : List Host.Cell := cs.filter (fun c => keyHalf c.1 != h)
  let e := s.mem.epoch + 1
  { s with mem := { s.mem with
      cells := keep s.mem.cells, dark := keep s.mem.dark, epoch := e, upset := []
      sinceN := if h = .north then e else s.mem.sinceN
      sinceS := if h = .south then e else s.mem.sinceS } }

/-- The ready bits (14 Table 14.2). -/
def bitMN : Nat := 0
def bitMS : Nat := 1
def bitRails : Nat := 3
def bitSeam : Nat := 4
def bitRim : Nat := 5
def bitStack : Nat := 6
def bitPort : Nat := 7
def bitTest : Nat := 8
def bitDlist : Nat := 9
def bitFw : Nat := 10
def bitSvc : Nat := 11

/-- Ready bits set and cleared. -/
def setReady (s : State) (b : Nat) : State :=
  { s with su := { s.su with ready := s.su.ready ||| BitVec.ofNat 32 (2 ^ b) } }
def clearReady (s : State) (b : Nat) : State :=
  { s with su := { s.su with ready := s.su.ready &&& ~~~(BitVec.ofNat 32 (2 ^ b)) } }

/-- The half of a unit of a link. -/
def linkHalf (u : Nat) : Half := if isRim u then rimHalf (u - 72) else siteHalf u
/-- The directions with an end in a half. -/
def halfDirs (h : Half) : List Nat := allDirs.filter (fun key => linkHalf (key / 16) == h || linkHalf (keyPeer key) == h)

/-- The links and ports of a half without their rails: down until they are trained again. -/
def dropLinks (s : State) (h : Half) : State :=
  let s := (halfDirs h).foldl (fun a key => if (linkAt a key).state == .retired then a else modLink a key (fun r => { r with state := .down })) s
  { s with fab := { s.fab with ports := tmap s.fab.ports (fun p r =>
      if portHalf p != h || r.state == .retired then r
      else { r with active := 0, state := if r.state == .ethUp || r.state == .ethDown then .ethDown else .down }) } }

/-- PROTECTIVE_TRIP (13 R342, R449): the rails of a half go off, with its links and ports, a held job ends, and the
tick stops. -/
def execProtectiveTrip (h : Half) (cause : TripCause) (s : State) : Host.Outcome State Fault Refusal :=
  let b := tripBit cause + (if h = .north then 0 else 6)
  let s := { s with power := { s.power with
    protect := s.power.protect ||| BitVec.ofNat 16 (2 ^ b)
    state := .tripped, target := none
    trippedN := s.power.trippedN || h == .north
    trippedS := s.power.trippedS || h == .south } }
  let s := raise s (.maltster h) 0x13 noEngine 0 s.power.protect.toNat none
  let s := clearReady (dropLinks (spoilHalf (dropCaches (flushAll s)) h) h) bitRails
  .next { s with tick := { s.tick with on := false, phase := .idle, votes := [] } }

end Sys2Proof.Machine
end

