-- ==== Sys2Proof/Machine/Staged.lean ====
section
/-!
DEFINITION. Abort codes, the crown's confirmation, the ready bits, and the staged records: their fields, checks and
commits (spec 16 R422 to R424; 15 R407, R410; 14 R372, R373).
-/
namespace Sys2Proof.Machine
open Sys2Proof

/-! ### Abort codes (16 Table 16.7) -/

def abTimeout : Word := 0x05040000
def abReadWo : Word := 0x06010001
def abWriteRo : Word := 0x06010002
def abNoIndex : Word := 0x06020000
def abHardware : Word := 0x06060000
def abLength : Word := 0x06070010
def abNoSub : Word := 0x06090011
def abRange : Word := 0x06090030
def abBusy : Word := 0x08000020
def abOwner : Word := 0x08000021
def abState : Word := 0x08000022

/-! ### The crown and readiness -/

/-- Whether the crown is held and confirmed: a peer acknowledgement, or a witness at the holder (15 R407). -/
def crownConfirmed (s : State) : Bool :=
  match s.crown.holder with
  | none => false
  | some .north => s.crown.peerAck || s.crown.witNorth
  | some .south => s.crown.peerAck || s.crown.witSouth

/-- A bit of the stored ready word. -/
def isReady (s : State) (b : Nat) : Bool := s.su.ready.getLsbD b

/-- Whether every site that runs at job start has a verified image: FW (14 R373). -/
def jobReady (s : State) : Bool :=
  crownConfirmed s && isReady s bitRails && isReady s bitDlist && isReady s bitFw && isReady s bitStack &&
  s.crown.withheld.isEmpty

/-- 2010h:01h: CROWN and JOB follow the state of the moment, the others are stored (14 Table 14.2). -/
def readyWord (s : State) : Word :=
  s.su.ready ||| (if crownConfirmed s then 4 else 0) ||| (if jobReady s then 0x1000 else 0)

/-- Whether the tick runs (02 R449). -/
def tickRuns (s : State) : Bool := s.tick.on

/-! ### Fields of the staged records -/

/-- The index of a record. -/
def recIndex : StagedRec → Nat
  | .r2002 => 0x2002
  | .r2410 => 0x2410
  | .r2420 => 0x2420
  | .r2800 => 0x2800
  | .r3080 => 0x3080
  | .r3800 => 0x3800
  | .r3C00 => 0x3C00

/-- The record at an index. -/
def recAt (i : Nat) : Option StagedRec :=
  [StagedRec.r2002, .r2410, .r2420, .r2800, .r3080, .r3800, .r3C00].find? (fun r => recIndex r == i)

/-- The rws fields of a record: sub-index and size in bytes. -/
def recFields : StagedRec → List (Nat × Nat)
  | .r2002 => [(2, 1), (3, 1)]
  | .r2410 => [(2, 2), (3, 1)]
  | .r2420 => [(2, 1), (3, 2), (4, 2), (5, 2)]
  | .r2800 => [(2, 2), (3, 1), (4, 1), (5, 4), (6, 1), (7, 1), (8, 1)]
  | .r3080 => [(2, 2), (3, 4), (4, 1), (5, 1)]
  | .r3800 => [(2, 2), (3, 16), (4, 1), (5, 2), (6, 2), (7, 1)]
  | .r3C00 => [(2, 1)]

/-- The size of a field. -/
def fieldSize (r : StagedRec) (sub : Nat) : Nat := ((recFields r).find? (fun f => f.1 == sub)).map Prod.snd |>.getD 0

/-- A 128-bit object in the order in which its bytes stand: the first byte of an address is its most significant. -/
def octets (v : BitVec 128) : List Byte := (leBytes 16 v.toNat).reverse
/-- The value of 16 octets. -/
def ofOctets (bs : List Byte) : BitVec 128 := BitVec.ofNat 128 (leNat bs.reverse)

/-- The value in effect of a field (00 R11). -/
def effectOf (s : State) (r : StagedRec) (sub : Nat) : List Byte :=
  let n := fieldSize r sub
  let t := s.tick.cfg
  match r, sub with
  | .r2002, 2 => leBytes n s.can.baseNode.toNat
  | .r2002, 3 => leBytes n s.can.dataRate.toNat
  | .r2410, 2 => leBytes n s.power.clock.toNat
  | .r2410, 3 => leBytes n s.power.floorMode.toNat
  | .r2420, 2 => leBytes n s.power.limitMode.toNat
  | .r2420, 3 => leBytes n s.power.coreLimit.toNat
  | .r2420, 4 => leBytes n s.power.sramLimit.toNat
  | .r2420, 5 => leBytes n s.power.railWindow.toNat
  | .r2800, 2 => leBytes n t.period.toNat
  | .r2800, 3 => leBytes n t.source.toNat
  | .r2800, 4 => leBytes n t.beaconIn.toNat
  | .r2800, 5 => leBytes n t.relay.toNat
  | .r2800, 6 => leBytes n t.ride.toNat
  | .r2800, 7 => leBytes n t.holdLim.toNat
  | .r2800, 8 => leBytes n t.voteWait.toNat
  | .r3080, 2 => leBytes n s.fab.moduleId.toNat
  | .r3080, 3 => leBytes n s.fab.ethPorts.toNat
  | .r3080, 4 => leBytes n s.fab.laneFloor.toNat
  | .r3080, 5 => leBytes n s.fab.markThr.toNat
  | .r3800, 2 => leBytes n s.svc.udpPort.toNat
  | .r3800, 3 => octets s.svc.pfx
  | .r3800, 4 => leBytes n s.svc.prefixLen.toNat
  | .r3800, 5 => leBytes n s.svc.resendUs.toNat
  | .r3800, 6 => leBytes n s.svc.queueMs.toNat
  | .r3800, 7 => leBytes n s.svc.cutoffUs.toNat
  | .r3C00, 2 => leBytes n s.img.bootBank.toNat
  | _, _ => []

/-- The staging of a record. -/
def stagingOf (s : State) (r : StagedRec) : Staging := tget Staging.clean s.dict.staging (recIndex r)
/-- The state with a record's staging set. -/
def setStaging (s : State) (r : StagedRec) (x : Staging) : State :=
  { s with dict := { s.dict with staging := tset s.dict.staging (recIndex r) x } }

/-- The staging copy of a field: what was written, else the value in effect. -/
def stagedOf (s : State) (r : StagedRec) (sub : Nat) : List Byte :=
  (tfind (stagingOf s r).fields sub).getD (effectOf s r sub)
/-- The staging copy as a number. -/
def stagedNat (s : State) (r : StagedRec) (sub : Nat) : Nat := leNat (stagedOf s r sub)

/-- What sub-index 01h reads (16 R424). -/
def recState (s : State) (r : StagedRec) : Nat :=
  let x := stagingOf s r
  if x.pending then 1
  else if x.refused then 5
  else if (recFields r).any (fun f => stagedOf s r f.1 != effectOf s r f.1) then 4
  else 0

/-! ### Checks -/

/-- The set bits of a 32-bit word among given positions. -/
def countBits (w : Nat) (ps : List Nat) : Nat := (ps.filter (fun p => bitAt w p)).length

/-- The field checks of a staging copy, between fields too; `true` where they pass. -/
def fieldsOk (s : State) (r : StagedRec) : Bool :=
  let v (sub : Nat) : Nat := stagedNat s r sub
  let range (x lo hi : Nat) : Bool := lo ≤ x && x ≤ hi
  match r with
  | .r2002 => range (v 2) 1 0x7C && v 3 ≤ 2
  | .r2410 => v 2 % 5 == 0 && range (v 2) 340 s.fuse.variant.ceilingMhz && v 3 ≤ 1
  | .r2420 => v 2 ≤ 3 && range (v 3) 40 400 && range (v 4) 6 60 && range (v 5) 5 500
  | .r2800 =>
    let eth := s.fab.ethPorts.toNat
    range (v 2) 25 2000 && v 3 ≤ 2 && (v 4 ≤ 31 || v 4 == 0xFF) && v 6 ≤ 1 && v 7 ≤ 3 &&
    (v 8 == 0 || range (v 8) 10 30) && !(v 6 == 1 && 400 < v 2) &&
    !(v 4 ≤ 31 && bitAt eth (v 4)) && v 5 &&& eth == 0
  | .r3080 =>
    let north := (List.range 32).filter (fun p => portHalf p == .north)
    let south := (List.range 32).filter (fun p => portHalf p == .south)
    v 2 ≤ 0xFFE && countBits (v 3) north ≤ 4 && countBits (v 3) south ≤ 4 && range (v 4) 1 8 && range (v 5) 8 120
  | .r3800 =>
    range (v 2) 1 65535 && v 4 ≤ 128 && range (v 5) 200 20000 && range (v 6) 1 60000 && range (v 7) 4 100
  | .r3C00 => v 2 ≤ 1

/-- Whether a start-up runs (14 Table 14.1). -/
def startingUp (s : State) : Bool := 1 ≤ s.su.step && s.su.step ≤ 7

/-- The conditions of a commit on the state of the module, on other records and on the budget (16 Table 16.8). -/
def stateOk (s : State) (r : StagedRec) (atTick : Bool) : Bool :=
  (match r with
   | .r2002 => !atTick
   | .r2410 => (atTick || !jobHeld s) &&
       !(stagedNat s r 3 == 1 && (s.power.limitMode.getLsbD 0 || s.power.effective.toNat < capW s))
   | .r2420 => atTick || !jobHeld s
   | .r2800 => !jobHeld s
   | .r3080 => !jobHeld s
   | .r3800 => !jobHeld s
   | .r3C00 => !atTick && !startingUp s) &&
  crownConfirmed s

/-- The first code with which a commit is refused, if it is (16 R422, R424). -/
def commitRefusal (s : State) (r : StagedRec) (atTick : Bool) : Option Word :=
  if (stagingOf s r).pending then some abState
  else if !stateOk s r atTick then some abState
  else if !fieldsOk s r then some abRange
  else none

/-! ### Taking effect -/

/-- What a change of 2800h does to the tick: an external source begins acquisition; the timer starts a period later. -/
def retimeTick (s : State) : State :=
  { s with tick := { s.tick with
      expected := none, inWindow := 0, flywheels := 0, srcState := if s.tick.cfg.source = 0#8 then 0 else 2 } }

/-- What a change of 3080h does to the ports: one that changes mode goes down, untrained, and so does a fabric port whose rim die
now carries an Ethernet port (11 R293). -/
def remodePorts (s : State) (old : Word) : State :=
  let changed := (List.range 32).filter (fun p => old.getLsbD p != s.fab.ethPorts.getLsbD p || besideEthernet s p)
  let remode (t : Tbl PortRec) (p : Nat) : Tbl PortRec :=
    match tfind t p with
    | some r =>
      let st := if s.fab.ethPorts.getLsbD p then PortState.ethDown else PortState.down
      if r.state == .retired then t else tset t p { r with state := st, active := 0, peer := 0 }
    | none => t
  { s with fab := { s.fab with ports := changed.foldl remode s.fab.ports } }

/-- The staging copy of a record taken into effect, all fields together. -/
def takeEffect (s : State) (r : StagedRec) : State :=
  let v (sub : Nat) : Nat := stagedNat s r sub
  let b8 (sub : Nat) : Byte := BitVec.ofNat 8 (v sub)
  let b16 (sub : Nat) : BitVec 16 := BitVec.ofNat 16 (v sub)
  let t : State :=
    match r with
    | .r2002 => { s with can := { s.can with baseNode := b8 2, dataRate := b8 3, flashBase := b8 2 } }
    | .r2410 => planSwitch { s with power := { s.power with clock := b16 2, floorMode := b8 3 } }
    | .r2420 => { s with power := { s.power with
        limitMode := b8 2, coreLimit := b16 3, sramLimit := b16 4, railWindow := b16 5 } }
    | .r2800 =>
      let cfg : TickConfig := { period := b16 2, source := b8 3, beaconIn := b8 4, relay := BitVec.ofNat 32 (v 5)
                                ride := b8 6, holdLim := b8 7, voteWait := b8 8 }
      retimeTick { s with tick := { s.tick with cfg := cfg } }
    | .r3080 => remodePorts { s with fab := { s.fab with
        moduleId := b16 2, ethPorts := BitVec.ofNat 32 (v 3), laneFloor := b8 4, markThr := b8 5 } } s.fab.ethPorts
    | .r3800 => { s with svc := { s.svc with
        udpPort := b16 2, pfx := ofOctets (stagedOf s r 3), prefixLen := b8 4, resendUs := b16 5, queueMs := b16 6
        cutoffUs := b8 7 } }
    | .r3C00 => { s with img := { s.img with bootBank := b8 2, bootSouth := b8 2 } }
  setStaging t r Staging.clean

/-- A commit with no tick: 2410h switches the clock at once (13 R346). -/
def commitNow (s : State) (r : StagedRec) : State :=
  let t := takeEffect s r
  if r = .r2410 then
    (match t.power.switchDue with
     | none => t
     | some f => { t with power := { t.power with clockNow := BitVec.ofNat 16 f, switchDue := none, ramped := []
                                                  changes := t.power.changes + 1 } })
  else t

/-- A commit left pending for the next tick. One of 2410h that arrives less than 10 µs before an edge counts as
arriving after it; VCORE begins to rise for a higher clock (13 R346). -/
def commitPending (s : State) (r : StagedRec) (t : Option Time) : State :=
  let late := match t, s.tick.expected with
    | some t, some e => r == .r2410 && t < e && e < t + 40000
    | _, _ => false
  let s := setStaging s r { stagingOf s r with pending := true, refused := false, late := late }
  if r = .r2410 then { s with power := { s.power with ramped := [] } } else s

/-- One pending record at a committing tick: checked again, against the state of the moment. -/
def tickRecord (s : State) (r : StagedRec) : State :=
  let x := stagingOf s r
  if !x.pending || x.late then s
  else
    let u := setStaging s r { x with pending := false }
    match commitRefusal u r true with
    | some _ => setStaging s r { x with pending := false, refused := true }
    | none => takeEffect s r

/-- Every record. -/
def allRecs : List StagedRec := [.r2002, .r2410, .r2420, .r2800, .r3080, .r3800, .r3C00]

/-- The pending records at step 5 of a committing tick. -/
def tickRecords (s : State) : State := allRecs.foldl tickRecord s

/-- After an edge's outcome a late commit is late no more. -/
def clearLate (s : State) : State :=
  { s with dict := { s.dict with staging := tmap s.dict.staging (fun _ x => { x with late := false }) } }

/-! ### Answers -/

/-- An access answered to a party. -/
def answer (s : State) (p : Party) (i sub : Nat) (r : Reply) : State :=
  { s with out := { s.out with sdo := s.out.sdo ++ [{ party := p, index := i, sub := sub, reply := r }] } }

end Sys2Proof.Machine
end

