-- ==== Sys2Proof/Machine/Jobs.lean ====
section
/-!
DEFINITION. Job ownership, job control, the start of a job and its copies, the memory window, the numeric flags and
diagnostic arming (spec 16 R426 to R431; 01 R20; 02 R56, R58; 04 R86, R88; 06 R160, R170; 09 R261; 12 R338).
-/
namespace Sys2Proof.Machine
open Sys2Proof

/-- What a write to an object does: the state after it and the abort code that refuses it, if one does. -/
abbrev Put := State × Option Word

/-- A write that takes effect. -/
def done (s : State) : Put := (s, none)
/-- A write that is refused, with every object unchanged. -/
def refuse (s : State) (c : Word) : Put := (s, some c)

/-! ### The start of a job -/

/-- The state conditions of a start, in rising code (16 R430, Table 16.18). -/
def stateReason (s : State) (service : Bool) : Option Nat :=
  if jobHeld s then some 0x20
  else if !jobReady s || (service && !isReady s bitSvc) then some 0x21
  else if (stagingOf s .r2800).pending then some 0x22
  else if s.tick.cfg.source != 0 && s.tick.srcState != 1 then some 0x23
  else if (List.range 72).any (fun n => (siteAt s n).seamReq == 2 || (siteAt s n).state == .computeReset) then some 0x24
  else if s.power.state != .run || s.power.target.isSome then some 0x25
  else none

/-- The running set put to work: logical numbers in rising site number, sites that are not healthy excluded, slates
not promoted idle, the links of a site that goes dark down, every copy of the remap table written (01 R14, R20, R21, R28). -/
def assignNumbers (s : State) : State :=
  let set := runningSet s
  let put (n : Nat) (r : SiteRec) : SiteRec :=
    match set.idxOf? n with
    | some m => { r with state := .running, logical := some m, viaTakeover := false }
    | none =>
      let st := if mayHold s n then SiteState.slateIdle
        else if cutOff s n || r.state == .dark || dieRefused s n || s.dl.entries.any (fun e => defUnit e == n && defKind e == 3)
        then .dark
        else .forwardOnly
      { r with state := st, logical := none, viaTakeover := false }
  let t := modSites s (List.range 72) put
  let fresh := (List.range 72).filter (fun n => isDark t n && !isDark s n)
  let t := fresh.foldl (fun a n => setSiteLinks a n .down) t
  { t with topo := { setRemap t.topo (set.zipIdx.map (fun x => (x.2, { site := BitVec.ofNat 7 x.1, valid := true, subst := false }))) with
      chiplets := set.length
      remapGen := 0 } }

/-- Counters of a site that clear at job start (05 R149; 08 R243; 10 R291; 13 R369). -/
def clearSite (r : SiteRec) : SiteRec :=
  { r with checks := 0, hits := 0, misses := 0, cacheFix := 0, refetch := 0, padFix := 0, padErr := 0, starved := 0
           combined := 0, sunk := 0, fallbacks := 0, unreach := 0, droops := 0 }
/-- Counters of a port that clear at job start (11 R323). -/
def clearPort (r : PortRec) : PortRec :=
  { r with symbols := 0, badCw := 0, retries := 0, corrected := 0, xoffTime := 0, discarded := 0, marks := 0
           beacons := 0, frames := 0 }
/-- Power counters that clear at job start; every gain at 1 (13 R351, R362, R364, R369). -/
def clearPower (p : Power) : Power :=
  { p with jobEnergy := 0, jobFrac := 0, energyFlag := if p.energyFlag.getLsbD 0 then 3 else 0, divEvents := 0, droops := 0, changes := 0
           aborts := 0, notMet := 0, timeouts := 0, floorBroken := 0, gains := [] }
/-- Service counters that clear at job start (12 R339). -/
def clearService (v : Service) : Service :=
  { v with received := 0, accepted := 0, rejected := 0, done := 0, sentTok := 0, discarded := 0, resends := 0 }

/-- Every counter and record that a job start clears (02 R58; 08 Table 8.7; 10 R291; 15 R413, R414; 16 Table 16.6). -/
def clearCounters (s : State) : State :=
  { s with
    topo := { s.topo with sites := tmap s.topo.sites (fun _ r => clearSite r) }
    casks := tmap s.casks (fun _ r => { r with corrected := 0, errors := 0, onDie := 0, degraded := [] })
    noc := { s.noc with links := tmap s.noc.links (fun _ r => { r with corrected := 0, retries := 0 }) }
    fab := { s.fab with updates := 0, unrouted := 0, ports := tmap s.fab.ports (fun _ r => clearPort r) }
    power := clearPower s.power
    svc := clearService s.svc
    flt := { log := [], faults := 0, haze := 0, retire := 0 }
    can := { s.can with errorReg := 0 }
    tick := { s.tick with count := 0, seq := 0, committed := 0, edgeFault := 0, held := 0, lost := 0, abandoned := 0
                          stale := 0, holds := 0, overrun := false, undrained := [] }
    job := { s.job with endReason := 0, endFault := 0, endFlags := 0, endFrames := 0, takeovers := 0, recoveries := 0
                        longest := 0, faultAt := none, endAtCommit := false, revokeOwner := false, copiesDone := false } }

/-- A task at job start (04 R88, 06 R164). Of two backward descriptors of one task the first holds (DESIGN CHOICE, log entry
72). -/
def startTask (back : List BackDesc) (e : StreamEntry) : Task :=
  let b := back.find? (fun b => b.task == e.task)
  { taskEmpty with entry := e, pc := e.entryPc, halted := false, back := b, mash := b.map mashInit }

/-- The clusters of the placement, with every counter at 0. -/
def startClusters (p : JobPlan) : Tbl Cluster :=
  p.placement.foldl (fun t k =>
    tset t k { clusterEmpty with tasks := (tget [] p.streams k).map (startTask (tget [] p.back k)) }) []

/-- The lines that the module writes for one task: its state line, its mash state line, and the grist table in task 0's
mash region (04 R88; 06 R161, R164, R170). -/
def startLines (k : Nat) (s : State) (t : Task) : State :=
  let s := storePlain s (padAddr k t.entry.baseLine) (stateLine t.entry.entryPc false 0 (List.replicate 7 0))
  match t.back with
  | none => s
  | some b =>
    let s := storePlain s (padAddr k b.region) (mashImage (mashInit b))
    if b.task = 0 then
      storePlain s (padAddr k (b.region + 1)) ((List.range 64).flatMap (fun _ => gristBytes (gristInit b.init)))
    else s

/-- The lines of every task. -/
def startAllLines (s : State) : State :=
  s.clusters.foldl (fun a c => c.2.tasks.foldl (startLines c.1) a) s

/-- The preload of 04 R86, whole lines in descriptor order, and the lines of every task after it. Each source line is checked as
its rim die reads it: an uncorrectable one is a fault, and the job does not start (08 R241; 16 R430). -/
def preload (s : State) : List Preload → State
  | [] => startAllLines s
  | x :: r =>
    let c := checkLines s x.src x.lines
    if c.2 then preload (storePlain c.1 x.dst (readBytes c.1 x.src (64 * x.lines))) r else c.1

/-- A job started (16 R429; 01 R20; 02 R56; 04 R86, R88; 08 R223, R232): numbers assigned, counters cleared, the plan
installed, the reserve placed, preload and state lines written. The copies to backing equal the banks. -/
def launchJob (s : State) (p : Party) (service : Bool) (d : List Byte) : State :=
  let plan := jobPlanOf d
  let s := clearCounters (assignNumbers (spareStacks s))
  let s := dropCaches s
  let s := { s with
    dict := { s.dict with owner := some (s.dict.owner.getD p) }
    clusters := startClusters plan
    job := { s.job with state := .starting, plan := some plan, placedBy := some (if service then .service else .submitter) } }
  let s := { s with
    casks := (List.range 16).foldl (fun t n =>
      let low := reserveLow s plan n
      if low = 0 then t else tset t n { stackAt s n with lowest := BitVec.ofNat 64 low }) s.casks
    fab := { s.fab with
      circuits := (plan.circuits.filter (circuitHere s plan)).length
      rings := plan.rings.length
      rates := [], lastCut := [] }
    svc := { s.svc with requests := [], slots := [], freeFr := [], saved := [], savedSlots := [], savedFree := [], cutoff := false }
    mem := { dropCopies s.mem with written := [], pending := [], dark := [], darkIn := [] } }
  preload (dropScratch s) plan.preload

/-- A refused start, with its reason kept (16 Table 16.17). -/
def refuseStart (s : State) (reason item : Nat) : Put :=
  ({ s with job := { s.job with refusal := BitVec.ofNat 32 (reason + 2 ^ 16 * item) } },
   some (if 0x20 ≤ reason then abState else abRange))

/-- A start requested through 2803h or 3802h: the conditions in the order of 16 R430, then the start. -/
def startJob (s : State) (p : Party) (service : Bool) : Put :=
  let s := { s with job := { s.job with refusal := 0 } }
  let d := if service then s.job.svcDesc else s.job.descriptor
  match stateReason s service with
  | some r => refuseStart s r noItem
  | none =>
    match layoutBad d service with
    | some i => refuseStart s 2 i
    | none =>
      let t := assignNumbers (spareStacks s)
      match descriptorBad t d t.topo.chiplets with
      | some x => refuseStart s x.1 x.2
      | none =>
        let u := launchJob s p service d
        done { u with job := if service then { u.job with svcControl := 1 } else { u.job with control := 1 } }

/-! ### Ends by command (16 R429, 12 R338) -/

/-- Code 02h: the job ends after the next commit. -/
def endAtCommit (s : State) : Put :=
  if jobHeld s then done { s with job := { s.job with endAtCommit := true } } else refuse s abState
/-- Code 03h: the frame in progress does not commit, and the job ends at once. -/
def endJobNow (s : State) : Put := if jobHeld s then done (endJobSpoilt s 2 0) else refuse s abState

/-- A write to 2803h:01h. -/
def putControl (s : State) (p : Party) (code : Nat) : Put :=
  let mark (x : Put) : Put := match x.2 with
    | none => ({ x.1 with job := { x.1.job with control := BitVec.ofNat 8 code } }, none)
    | some _ => x
  match code with
  | 0 => done s
  | 1 => startJob s p false
  | 2 => mark (endAtCommit s)
  | 3 => mark (endJobNow s)
  | _ => refuse s abRange

/-- A write to 3802h:01h. -/
def putSvcControl (s : State) (p : Party) (code : Nat) : Put :=
  match code with
  | 0 => done s
  | 1 => startJob s p true
  | 2 =>
    let x := endAtCommit s
    (match x.2 with
     | none => ({ x.1 with job := { x.1.job with svcControl := 2 } }, none)
     | some _ => x)
  | _ => refuse s abRange

/-! ### Ownership (16 R427, R428, Table 16.15) -/

/-- Whether a party may write an object reserved to the owner. -/
def mayWrite (s : State) (p : Party) : Bool :=
  match s.dict.owner with
  | none => true
  | some o => o == p

/-- A write to 2802h:01h. A revoke that arrives while a job starts waits for its first frame. -/
def putOwnership (s : State) (p : Party) (code : Nat) : Put :=
  match code with
  | 1 =>
    (match s.dict.owner with
     | none => done { s with dict := { s.dict with owner := some p, ownerSince := s.dict.ownerSince + 1 } }
     | some o => if o = p then done s else refuse s abOwner)
  | 2 =>
    (match s.dict.owner with
     | none => done s
     | some o => if o ≠ p then refuse s abOwner else if jobHeld s then refuse s abState else done (clearOwner s))
  | 3 =>
    if s.dict.owner.isNone then done s
    else if s.job.state == .starting then done { s with job := { s.job with revokeOwner := true } }
    else if jobHeld s then done (revokeJob s)
    else done (clearOwner s)
  | _ => refuse s abRange

/-! ### The memory window (16 R431) -/

/-- The largest window transfer (16 R423). -/
def windowMax : Nat := 2 ^ 30

/-- The first code that refuses a window transfer of n bytes at an address: the length, a job held or a stack that is
not trained, a byte outside the populated lines. -/
def windowRefusal (s : State) (a n : Nat) : Option Word :=
  if windowMax < n then some abLength
  else if jobHeld s then some abState
  else
    match placeOf a with
    | .stack k off =>
      if !stackRetired s k && !s.su.stacksReady.getLsbD k then some abState
      else if off + n ≤ 64 * (stackAt s k).populated then none
      else some abRange
    | _ => some abRange

/-- The first stack of an uncorrectable word in a range. -/
def windowError (s : State) (a n : Nat) : Option Nat :=
  if (upsetsIn s.mem 0 a n).any (fun x => x.2 == .double) then some (a / stackWindow) else none

/-- A window write: bytes stored, check bytes generated. -/
def writeWindow (s : State) (bs : List Byte) : Put :=
  match windowRefusal s s.dict.window.toNat bs.length with
  | some c => refuse s c
  | none => done (storePlain s s.dict.window.toNat bs)

/-- A window read of n bytes from an offset in the window. Corrected words are counted and
rewritten; an uncorrectable word aborts it, and its stack counts it. -/
def readWindow (s : State) (off n : Nat) : State × Reply :=
  let a := s.dict.window.toNat + off
  match windowRefusal s a n with
  | some c => (s, .abort c)
  | none =>
    let s := fixStack s (a / stackWindow) a n
    match windowError s a n with
    | some k => (modStack s k (fun r => { r with errors := r.errors + 1 }), .abort abHardware)
    | none => (s, .data (readBytes s a n))

/-! ### The copies of a job start -/

/-- JOB_START_COPIES_DONE (02 R56, 16 R430): the first frame begins at the next edge. A fault during the copies is
reported, and the job ends before its first frame with reason 30h. -/
def execJobStartCopiesDone (f : Option CopyFault) (s : State) : Host.Outcome State Fault Refusal :=
  if s.job.state != .starting || s.job.copiesDone then .next s
  else
    match f with
    | none =>
      let s := if rideThrough s then copyCarry s else s
      .next (startService { s with job := { s.job with copiesDone := true } })
    | some x =>
      if x.code = 6 || x.code = 8 then
        .next (raise s (.rim x.rim) x.code.toNat noEngine 0 (if x.code = 6 then x.line.toNat else 0) none)
      else .next s

/-! ### Numeric flags and diagnostic arming (03 R83, 09 R261) -/

/-- A write to 4000h + k, sub-index 03h: only 0 is accepted. -/
def putNumericFlags (s : State) (k v : Nat) : Put :=
  if v ≠ 0 then refuse s abRange
  else if clusterHeld s k then done (modCluster s k (fun c => { c with flags := 0 }))
  else done s

/-- Whether a cluster is armed, is about to be, or holds an unread capture. -/
def diagBusy (d : Diag) : Bool :=
  d.state != 0 || d.control.getLsbD 0 || (match d.pending with
    | some v => v.getLsbD 0
    | none => false)

/-- Whether another cluster of the same logical chiplet is armed or holds a capture. -/
def diagTaken (s : State) (k : Nat) : Bool :=
  s.clusters.any (fun c => c.1 != k && c.1 / 8 == k / 8 && diagBusy c.2.diag)

/-- A write to 4000h + k, sub-index 0Dh: it takes effect at the next tick that completes step 5, or at once while no
tick runs. -/
def putDiag (s : State) (k : Nat) (w : DWord) : Put :=
  let v := w &&& 0x0000FFFFFFFFF3FF
  if !jobHeld s || diagTaken s k then refuse s abState
  else if 5 < bitsAt v.toNat 1 4 then refuse s abRange
  else if !clusterHeld s k then done s
  else if tickRuns s then done (modCluster s k (fun c => { c with diag := { c.diag with pending := some v } }))
  else done (modCluster s k (fun c =>
    { c with diag := { diagEmpty with control := v, state := if v.getLsbD 0 then 1 else 0 } }))

end Sys2Proof.Machine
end

