-- ==== Sys2Proof/Machine/Objects.lean ====
section
/-!
DEFINITION. What every object of the dictionary reads, with its access right and its size (spec 16 R421 and the object
tables of every chapter).
-/
namespace Sys2Proof.Machine
open Sys2Proof

/-- Access rights (00 R11). -/
inductive Access where
  | ro | rw | wo | const | rws | rwt
deriving DecidableEq, Repr

/-- One object: its access right, its size in bytes (none: a DOMAIN), and the bytes that a read returns. -/
structure Obj where
  acc  : Access
  size : Option Nat
  val  : List Byte
deriving DecidableEq, Repr

/-- Objects of each kind, of n bytes and a value. -/
def oRo (n v : Nat) : Option Obj := some { acc := .ro, size := some n, val := leBytes n v }
def oRw (n v : Nat) : Option Obj := some { acc := .rw, size := some n, val := leBytes n v }
def oConst (n v : Nat) : Option Obj := some { acc := .const, size := some n, val := leBytes n v }
def oWo (n : Nat) : Option Obj := some { acc := .wo, size := some n, val := [] }
/-- An octet string. -/
def oBytes (acc : Access) (v : List Byte) : Option Obj := some { acc := acc, size := some v.length, val := v }
/-- A DOMAIN. -/
def oDomain (acc : Access) (v : List Byte) : Option Obj := some { acc := acc, size := none, val := v }

/-- A signed value of n bytes, in two's complement. -/
def intNat (n : Nat) (v : Int) : Nat := (v % (2 ^ (8 * n) : Int)).toNat

/-- The half whose maltster receives the access (16 R419, R434). -/
def partyHalf : Party → Half
  | .can h _ => h
  | .fabric h _ _ => h

/-! ### Views of one half -/

/-- The epoch that a maltster knows. -/
def epochOf (s : State) (h : Half) : Word := if h = .north then s.crown.epochNorth else s.crown.epochSouth
/-- The epoch that a maltster claims. -/
def claimOf (s : State) (h : Half) : Option Word := if h = .north then s.crown.claimNorth else s.crown.claimSouth
/-- Whether a maltster has a witness of the last 50 ms. -/
def witnessOf (s : State) (h : Half) : Bool := if h = .north then s.crown.witNorth else s.crown.witSouth
/-- How far a half's maltster has booted. -/
def bootOf (s : State) (h : Half) : BootState := if h = .north then s.su.northBoot else s.su.southBoot
/-- The private identity key of a half, which no object reads (17 R438), and its public key. -/
def identitySecret (s : State) (h : Half) : List Byte := if h = .north then s.fuse.idSecretNorth else s.fuse.idSecretSouth
def identityKey (s : State) (h : Half) : List Byte := ed448Public (identitySecret s h)
/-- The attestation objects of a half. -/
def attestOf (s : State) (h : Half) : Attest := if h = .north then s.attNorth else s.attSouth
/-- The minimum security version of a half. -/
def minSvnOf (s : State) (h : Half) : Nat := if h = .north then s.fuse.minSvnNorth else s.fuse.minSvnSouth
/-- The code of the crown's holder (2030h:01h): a crown that is not confirmed is held by no maltster, as CROWN of
Table 14.2 says. -/
def holderCode (s : State) : Nat :=
  if !crownConfirmed s then 0
  else match s.crown.holder with
    | none => 0
    | some .north => 1
    | some .south => 2
/-- 2030h:04h as a maltster sees it. -/
def confirmation (s : State) (h : Half) : Nat :=
  bit (s.crown.holder == some h && s.crown.peerAck) + 2 * bit (witnessOf s h) + 4 * bit (claimOf s h).isSome
/-- The bank of a half's flash: 0 is A. -/
def bankOf (s : State) (h : Half) (b : Nat) : Bank :=
  match h, b with
  | .north, 0 => s.img.northA
  | .north, _ => s.img.northB
  | .south, 0 => s.img.southA
  | .south, _ => s.img.southB
/-- The running bank of a half. -/
def runningBankOf (s : State) (h : Half) : Nat := (if h = .north then s.img.runningBank else s.img.runSouth).toNat
/-- Whether an upload is in progress. -/
def uploading (s : State) : Bool := s.dict.transfers.any (fun t => t.write && t.index == 0x3C01 && t.sub == 1)
/-- 3C00h:04h and 05h. -/
def bankCode (s : State) (h : Half) (b : Nat) : Nat :=
  if uploading s && runningBankOf s h != b then 3
  else match bankOf s h b with
    | .empty => 0
    | .valid _ => 1
    | .invalid => 2
/-- The version of the running set. -/
def setVersion (s : State) : Nat := match s.img.running with
  | some x => x.setver.toNat
  | none => 0

/-! ### The revision map (14 R390, 17 R440) -/

/-- Whether a set carries an image for a die: for a chiplet one of its revision, for the others one of their type. -/
def setCarries (x : ImageSet) (d : Nat × Nat) : Bool :=
  match d.1 with
  | 0 => x.images.any (fun e => e.type == 4#8 && e.rev.toNat == d.2)
  | 1 => x.images.any (fun e => e.type == 2#8)
  | _ => x.images.any (fun e => e.type == 1#8)
/-- One entry of the revision map. -/
def revWord (s : State) (i : Nat) : Nat :=
  let d := dieOf s i
  match s.img.running with
  | none => d.2
  | some x => d.2 + 256 * bit (setAdmits s x d) + 512 * bit (setCarries x d)

/-! ### Jobs and ownership -/

/-- The code of a job state. -/
def jobStateCode : JobState → Nat
  | .none => 0 | .starting => 1 | .running => 2 | .ending => 3
/-- 2802h:02h and 03h. -/
def ownerChannel (s : State) : Nat := match s.dict.owner with
  | none => 0
  | some (.can .north _) => 1
  | some (.can .south _) => 2
  | some (.fabric _ _ _) => 3
def ownerIdentity (s : State) : Nat := match s.dict.owner with
  | none => 0
  | some (.can _ n) => n.toNat
  | some (.fabric _ m r) => m.toNat + 2 ^ 12 * r.toNat
/-- 2803h:04h. -/
def placerCode (s : State) : Nat := match s.job.placedBy with
  | none => 0
  | some .submitter => 1
  | some .service => 2

/-! ### Power -/

/-- The code of a power state (13 Table 13.6). -/
def powerCode : PowerState → Nat
  | .run => 0 | .hold => 1 | .park => 2 | .quiet => 3 | .tripped => 4
/-- A calibration gain in units of 1/4096, rounded down. -/
def gainUnits (g : Rat) : Nat := (g.num * 4096 / (g.den : Int)).toNat

/-! ### Clusters (04 R117; 05 to 09; 13 R358) -/

/-- Table 4.15. -/
def seqCode : SeqState → Nat
  | .noJob => 0 | .issuing => 1 | .allDone => 2 | .allHalted => 3 | .switching => 4 | .stopped => 5 | .recovering => 6
def seqStatus (c : Cluster) : Nat :=
  let mask (f : Task → Bool) : Nat := (List.range 4).foldl (fun v t => v + (if c.hasTask t && f (c.task t) then 2 ^ t else 0)) 0
  seqCode c.seq + 2 ^ 8 * c.resident + 2 ^ 12 * c.tasks.length + 2 ^ 16 * mask Task.frameDone + 2 ^ 20 * mask Task.halted
    + 2 ^ 32 * c.cur.pc
/-- Table 9.8. -/
def diagStatus (d : Diag) : Nat := d.state + 4 * bit d.free + 8 * bit d.isOpen + 16 * d.group + 2 ^ 32 * d.frame.toNat
/-- 4000h + k, sub-index B0h. -/
def boilWord (c : Cluster) : Nat := match c.boil with
  | none => 0
  | some b => b.ahead % 256 + 2 ^ 8 * b.span + 2 ^ 16 * b.level + 2 ^ 20 * b.mask
/-- 4000h + k, sub-index 30h: the resident task's depths. -/
def mashDepths (c : Cluster) : Nat := match c.cur.mash with
  | none => 0
  | some m => m.depth0 + 2 ^ 24 * m.depth1
/-- Bits [31:0] of a grist entry as last committed (06 R170, R192); 0 where task 0 has no backward descriptor (DESIGN CHOICE, log
entry 72). -/
def gristWord (s : State) (k : Nat) (c : Cluster) (i : Nat) : Nat := match (c.task 0).back with
  | none => 0
  | some b => leNat (readBytes s (gristAddr k b + 32 * i) 4)

/-- The record of a logical cluster that the job holds. -/
def clusterObj (s : State) (k sub : Nat) : Option Obj :=
  let c := clusterAt s k
  let e (i : Nat) : EngineRec := c.engine i
  if sub = 1 then none
  else if sub = 2 then oRo 8 (bankFloor s k)
  else if sub = 3 then oRw 2 c.flags.toNat
  else if sub = 4 then oRo 8 (seqStatus c)
  else if sub = 5 then oRo 4 c.faultWord.toNat
  else if sub = 6 then oRo 4 c.switches.toNat
  else if sub = 7 then oRo 8 c.stalls.toNat
  else if sub = 8 then oRo 8 c.spin.toNat
  else if sub = 9 then oRo 4 c.satur.toNat
  else if sub = 0x0A then oRo 4 c.unfenced.toNat
  else if sub = 0x0B then oRo 8 c.remoteSig.toNat
  else if sub = 0x0C then oRo 8 c.relayLines.toNat
  else if sub = 0x0D then some { acc := .rwt, size := some 8, val := leBytes 8 c.diag.control.toNat }
  else if sub = 0x0E then oRo 8 (diagStatus c.diag)
  else if sub = 0x0F then oDomain .ro (c.diag.capture.flatMap (fun d => leBytes 8 d.toNat))
  else if 0x10 ≤ sub && sub ≤ 0x15 then oRo 8 (e (sub - 0x10)).products.toNat
  else if sub = 0x16 then oRo 8 c.addrFault.toNat
  else if 0x18 ≤ sub && sub ≤ 0x1D then oRo 8 (e (sub - 0x18)).gated.toNat
  else if (0x20 ≤ sub && sub ≤ 0x27) || (0x29 ≤ sub && sub ≤ 0x2A) then oRo 8 (e (sub - 0x20)).stalls.toNat
  else if 0x2B ≤ sub && sub ≤ 0x2C then oRo 8 (e (sub - 0x22)).misses.toNat
  else if sub = 0x2D then oRo 8 c.wtWaits.toNat
  else if sub = 0x30 then oRo 8 (mashDepths c)
  else if sub = 0x31 then oRo 8 c.mashWaits.toNat
  else if sub = 0x32 then oRo 4 c.spills.toNat
  else if sub = 0x33 then oRo 4 c.prefetches.toNat
  else if sub = 0x34 then oRo 8 c.updated.toNat
  else if sub = 0x35 then oRo 4 c.skipped.toNat
  else if 0x38 ≤ sub && sub ≤ 0x39 then oRo 8 (e (sub - 0x32)).work.toNat
  else if 0x3A ≤ sub && sub ≤ 0x3B then oRo 8 (e (sub - 0x31)).work.toNat
  else if 0x40 ≤ sub && sub ≤ 0x7F then oRo 4 (gristWord s k c (sub - 0x40))
  else if 0x80 ≤ sub && sub ≤ 0xAF then oRo 8 (syncWord (c.syncObj (sub - 0x80))).toNat
  else if sub = 0xB0 then oRo 4 (boilWord c)
  else if sub = 0xB1 then oRo 8 c.bubbles.toNat
  else none

/-- An object with every byte of its value zero; a DOMAIN empty. -/
def Obj.zero (o : Obj) : Obj := { o with val := match o.size with
  | none => []
  | some n => List.replicate n 0 }

/-- The record of a logical cluster; one that the job does not hold reads zero (16 R421). -/
def clusterRecord (s : State) (k sub : Nat) : Option Obj :=
  (clusterObj s k sub).map (fun o => if clusterHeld s k then o else o.zero)

/-! ### Sites, stacks, links, ports -/

/-- The record of a physical site. -/
def siteRecord (s : State) (n sub : Nat) : Option Obj :=
  let r := siteAt s n
  let mem (b v : Nat) : Option Obj := oRo b (if jobHeld s then v else 0)
  if sub = 1 then oRo 1 (siteStateCode r.state)
  else if sub = 2 then oRo 1 (r.logical.getD 0xFF)
  else if sub = 3 then oRo 4 r.start.toNat
  else if sub = 5 then oRw 1 r.resetReq.toNat
  else if sub = 6 then oRo 4 r.resets.toNat
  else if 0x20 ≤ sub && sub ≤ 0x4F then oRo 8 (tget (BitVec.allOnes 64) r.repair (sub - 0x20)).toNat
  else if sub = 0x50 then oRo 4 r.checks.toNat
  else if sub = 0x58 then mem 8 r.hits.toNat
  else if sub = 0x59 then mem 8 r.misses.toNat
  else if sub = 0x5A then mem 4 r.cacheFix.toNat
  else if sub = 0x5B then mem 4 r.refetch.toNat
  else if sub = 0x5C then mem 8 r.padFix.toNat
  else if sub = 0x5D then mem 4 r.padErr.toNat
  else if sub = 0x60 then oRo 8 r.starved.toNat
  else if sub = 0x61 then oRo 8 r.combined.toNat
  else if sub = 0x62 then oRo 4 r.sunk.toNat
  else if sub = 0x63 then oRo 4 r.fallbacks.toNat
  else if sub = 0x64 then oRo 4 r.unreach.toNat
  else if sub = 0x70 then oRo 2 r.vcore.toNat
  else if sub = 0x71 then oRo 4 r.iCore.toNat
  else if sub = 0x72 then oRo 4 r.iSram.toNat
  else if sub = 0x73 then oRo 4 r.iSeam.toNat
  else if sub = 0x74 then oRo 2 r.estPower.toNat
  else if sub = 0x75 then oRo 2 (gainUnits (gainAt s n 0).gain)
  else if sub = 0x76 then oRo 2 (intNat 2 r.junction)
  else if sub = 0x77 then oRo 4 r.droops.toNat
  else if sub = 0x78 then oRo 1 r.bubble
  else none

/-- The record of a stack (08 Table 8.7). -/
def stackRecord (s : State) (n sub : Nat) : Option Obj :=
  let r := stackAt s n
  match sub with
  | 1 => oRo 1 r.partner.toNat
  | 2 => oRo 4 r.populated
  | 3 => oRo 8 r.retired.toNat
  | 4 => oRo 8 r.corrected.toNat
  | 5 => oRo 4 r.errors.toNat
  | 6 => oRo 4 r.onDie.toNat
  | 7 => oRo 1 r.refresh.toNat
  | 8 => oRo 8 r.lowest.toNat
  | 9 => oRo 4 r.degraded.length
  | _ => none

/-- The code of a link state (10 Table 10.9). -/
def linkCode : LinkState → Nat
  | .down => 0 | .full => 1 | .narrow => 2 | .closed => 3 | .retired => 4
/-- The status word of a link direction. -/
def linkWord (s : State) (key : Nat) : Nat :=
  let r := linkAt s key
  linkCode r.state + 2 ^ 3 * r.spares + 2 ^ 8 * r.failed.length + 2 ^ 16 * keyPeer key
/-- The objects of the links of unit u, which has n of them. -/
def linkObj (s : State) (u n sub : Nat) : Option Obj :=
  if 1 ≤ sub && sub ≤ n then oRo 4 (linkWord s (16 * u + sub - 1))
  else if 0x11 ≤ sub && sub ≤ 0x10 + n then oRo 4 (linkAt s (16 * u + sub - 0x11)).corrected.toNat
  else if 0x21 ≤ sub && sub ≤ 0x20 + n then oRo 4 (linkAt s (16 * u + sub - 0x21)).retries.toNat
  else none
/-- The seam record of a site. -/
def seamRecord (s : State) (n sub : Nat) : Option Obj :=
  if sub = 0x31 then oRw 1 (siteAt s n).seamReq.toNat else linkObj s n 16 sub

/-- The status word of a port (11 Table 11.15). -/
def portWord (r : PortRec) : Nat :=
  let st := match r.state with
    | .down => 0
    | .up => if r.active = 0xFF#8 then 1 else 2
    | .closed => 3
    | .retired => 4
    | .ethUp => 5
    | .ethDown => 6
  st + 2 ^ 3 * r.active.toNat + 2 ^ 11 * r.failed.toNat + 2 ^ 20 * r.peer.toNat
/-- The record of a port. -/
def portRecord (s : State) (p sub : Nat) : Option Obj :=
  let r := portAt s p
  match sub with
  | 1 => oRo 4 (portWord r)
  | 2 => oRo 2 r.delay.toNat
  | 3 => oRo 8 r.symbols.toNat
  | 4 => oRo 4 r.badCw.toNat
  | 5 => oRo 4 r.retries.toNat
  | 6 => oRo 4 r.corrected.toNat
  | 7 => oRo 8 r.xoffTime.toNat
  | 8 => oRo 4 r.discarded.toNat
  | 9 => oRo 8 r.marks.toNat
  | 10 => oRo 4 r.beacons.toNat
  | 11 => oConst 6 (tget 0 s.fuse.mac p).toNat
  | 12 => oRo 4 r.frames.toNat
  | _ => none

/-- The state of a circuit (11 Table 11.14). -/
def circuitWord (s : State) (c : Nat) : Nat :=
  match circuitAt s c with
  | none => 0
  | some x => tget 64 s.fab.rates c % 128 + 2 ^ 8 * dirBits (x.legs.map (fun l => legChoice s l == some true))

/-- Bytes of the management route table and of the defect list and log. -/
def defectBytes (s : State) : List Byte := s.dl.entries.flatMap (fun e => leBytes 8 e.toNat)
def logBytes (s : State) : List Byte := s.flt.log.flatMap (fun r => leBytes 16 r.toNat)
/-- A remap entry as a word (01 Table 1.9). -/
def remapWord (s : State) (m : Nat) : Nat :=
  let e := remapAt s m
  e.site.toNat + 2 ^ 7 * bit e.valid + 2 ^ 8 * bit e.subst

/-! ### Staged records -/

/-- The objects of a staged record: commit control and its rws fields. -/
def stagedObj (s : State) (r : StagedRec) (sub : Nat) : Option Obj :=
  if sub = 1 then oRw 1 (recState s r)
  else match (recFields r).find? (fun f => f.1 == sub) with
    | some f => some { acc := .rws, size := some f.2, val := effectOf s r sub }
    | none => none

/-! ### The dictionary -/

/-- Live requests: queued or in a slot. -/
def liveRequests (s : State) : Nat := (s.svc.requests.filter (fun r => r.stage == .queued || r.stage == .running)).length

/-- Records of the module's own indices. -/
def moduleObj (s : State) (h : Half) (i sub : Nat) : Option Obj :=
  let w := s.power
  match i, sub with
  | 0x1018, 1 => oConst 4 s.fuse.vendorId.toNat
  | 0x1018, 2 => oConst 4 (0x72640000 + s.fuse.variant.code)
  | 0x1018, 3 => oRo 4 (setVersion s)
  | 0x1018, 4 => oConst 4 (fieldAt s.fuse.panelSerial 0 4)
  | 0x2000, 1 => oConst 1 s.fuse.variant.code
  | 0x2000, 2 => oConst 2 s.fuse.variant.ceilingMhz
  | 0x2000, 3 => oConst 4 s.fuse.variant.capW
  | 0x2000, 4 => oConst 2 s.fuse.variant.floorMhz
  | 0x2000, 5 => oBytes .const s.fuse.panelSerial
  | 0x2002, 4 => oRo 1 s.can.nodeNorth.toNat
  | 0x2002, 5 => oRo 1 s.can.nodeSouth.toNat
  | 0x2002, 6 => oRo 1 (bit s.fuse.nidNorth + 2 * bit s.fuse.nidSouth)
  | 0x2002, 7 => oRo 4 s.can.dropped.toNat
  | 0x2010, 1 => oRo 4 (readyWord s).toNat
  | 0x2010, 2 => oRo 1 s.su.step
  | 0x2010, 3 => oRo 4 s.su.timeMs
  | 0x2010, 4 => oRo 2 s.su.stacksReady.toNat
  | 0x2010, 5 => oRo 4 s.su.startCount.toNat
  | 0x2010, 6 => oRo 4 s.su.outsideBound.toNat
  | 0x2020, n => if 1 ≤ n && n ≤ 0x5A then oRo 2 (revWord s (n - 1)) else none
  | 0x2021, 1 => oConst 2 s.fuse.compat.toNat
  | 0x2021, 2 => oRo 4 s.su.featureMask.toNat
  | 0x2021, 3 => oRo 1 s.su.notAdmitted.toNat
  | 0x2030, 1 => oRo 1 (holderCode s)
  | 0x2030, 2 => oRo 4 (epochOf s h).toNat
  | 0x2030, 3 => oRo 2 (if s.crown.lease = 0#16 then 0 else Config.freeNat s.freeCtr % 51)
  | 0x2030, 4 => oRo 1 (confirmation s h)
  | 0x2030, 5 => oWo 4
  | 0x2030, 6 => oRo 4 s.crown.takes.toNat
  | 0x2030, 7 => oRo 4 s.crown.stops.toNat
  | 0x2400, 1 => oRo 2 w.voltNorth.toNat
  | 0x2400, 2 => oRo 4 w.ampNorth.toNat
  | 0x2400, 3 => oRo 2 w.voltSouth.toNat
  | 0x2400, 4 => oRo 4 w.ampSouth.toNat
  | 0x2400, 5 => oRo 4 w.inPower.toNat
  | 0x2400, 6 => oRo 4 w.estPower.toNat
  | 0x2400, 7 => oRo 2 w.protect.toNat
  | 0x2410, 4 => oRo 2 w.clockNow.toNat
  | 0x2411, 1 => oRw 1 w.command.toNat
  | 0x2411, 2 => oRo 1 (powerCode w.state)
  | 0x2430, 1 => oRw 4 w.budget.toNat
  | 0x2430, 2 => oRw 4 w.timeout.toNat
  | 0x2430, 3 => oRw 4 w.fallback.toNat
  | 0x2430, 4 => oRo 4 w.effective.toNat
  | 0x2430, 5 => oRo 4 w.ceiling.toNat
  | 0x2440, 1 => oRo 8 w.jobEnergy.toNat
  | 0x2440, 2 => oRo 1 w.energyFlag.toNat
  | 0x2440, 3 => oRo 8 w.lifeEnergy.toNat
  | 0x2440, 4 => oRo 4 w.lifeLatch.toNat
  | 0x2450, 1 => oRo 4 w.peak.toNat
  | 0x2450, 2 => oRo 1 w.peakAt.toNat
  | 0x2460, 1 => oRo 1 w.divState.toNat
  | 0x2460, 2 => oRo 1 w.divUnit.toNat
  | 0x2460, 3 => oRo 4 w.divEvents.toNat
  | 0x2460, 4 => oRo 2 w.divMax.toNat
  | 0x2470, 1 => oRo 2 (intNat 2 w.inlet)
  | 0x2470, 2 => oRo 2 (intNat 2 w.outlet)
  | 0x2470, 3 => oRo 2 w.flow.toNat
  | 0x2470, 4 => oRo 2 (intNat 2 w.hottest)
  | 0x2470, 5 => oRo 1 w.hotUnit.toNat
  | 0x2470, 6 => oRo 1 w.warnings.toNat
  | 0x2471, 1 => oRo 4 w.droops.toNat
  | 0x2471, 2 => oRo 4 w.changes.toNat
  | 0x2471, 3 => oRo 4 w.aborts.toNat
  | 0x2471, 5 => oRo 4 w.notMet.toNat
  | 0x2471, 6 => oRo 4 w.timeouts.toNat
  | 0x2471, 7 => oRo 4 w.floorBroken.toNat
  | 0x2801, 1 => oRo 8 s.tick.count.toNat
  | 0x2801, 2 => oRo 8 s.tick.seq.toNat
  | 0x2801, 3 => oRo 8 s.tick.committed.toNat
  | 0x2801, 4 => oRo 2 (frameTag s)
  | 0x2801, 5 => oRo 1 s.tick.srcState.toNat
  | 0x2801, 6 => oRo 4 s.tick.edgeFault.toNat
  | 0x2801, 7 => oRo 4 s.tick.held.toNat
  | 0x2801, 8 => oRo 4 s.tick.lost.toNat
  | 0x2801, 9 => oRo 4 s.tick.abandoned.toNat
  | 0x2801, 10 => oRo 4 s.tick.drainNs.toNat
  | 0x2801, 11 => oRo 4 s.tick.stale.toNat
  | 0x2802, 1 => oWo 1
  | 0x2802, 2 => oRo 1 (ownerChannel s)
  | 0x2802, 3 => oRo 4 (ownerIdentity s)
  | 0x2802, 4 => oRo 4 s.dict.ownerSince.toNat
  | 0x2803, 1 => oRw 1 s.job.control.toNat
  | 0x2803, 2 => oDomain .rw s.job.descriptor
  | 0x2803, 3 => oRo 1 (jobStateCode s.job.state)
  | 0x2803, 4 => oRo 1 (placerCode s)
  | 0x2803, 5 => oRo 4 s.job.refusal.toNat
  | 0x2804, 1 => oRw 8 s.dict.window.toNat
  | 0x2804, 2 => oDomain .rw []
  | _, _ => none

/-- Records of the rest of the module's own indices. -/
def moduleObj2 (s : State) (h : Half) (i sub : Nat) : Option Obj :=
  let live : Bool := s.job.state == .starting || s.job.state == .running
  let a := attestOf s h
  match i, sub with
  | 0x2810, 1 => oRo 1 s.job.endReason.toNat
  | 0x2810, 2 => oRo 1 s.job.endFault.toNat
  | 0x2810, 3 => oRo 2 s.job.endFlags.toNat
  | 0x2810, 4 => oRo 8 s.job.endFrames.toNat
  | 0x2810, 5 => oRo 4 s.job.takeovers.toNat
  | 0x2810, 6 => oRo 4 (if live then 0 else s.job.recoveries.toNat)
  | 0x2810, 7 => oRo 4 (if live then 0 else s.job.longest.toNat)
  | 0x2820, 1 => oRo 4 s.flt.faults.toNat
  | 0x2820, 2 => oDomain .ro (logBytes s)
  | 0x2C00, 1 => oConst 1 8
  | 0x2C00, 2 => oConst 1 9
  | 0x2C00, 3 => oRo 1 s.topo.chiplets
  | 0x2C00, 4 => oRo 4 s.topo.remapGen.toNat
  | 0x2C01, n => if 1 ≤ n && n ≤ 8 then oRo 1 (s.topo.slateCol.getD (n - 1) 4) else none
  | 0x2C02, n => if 1 ≤ n && n ≤ 0x40 then oRo 2 (remapWord s (n - 1)) else none
  | 0x2C10, 1 => oRo 2 s.dl.entries.length
  | 0x2C10, 2 => oRo 4 s.dl.generation.toNat
  | 0x2C10, 3 => oDomain .ro (defectBytes s)
  | 0x2C10, 4 => oRo 1 (bit s.dl.northBad + 2 * bit s.dl.southBad)
  | 0x2C11, 1 => oDomain .wo []
  | 0x2C11, 2 => oRo 1 s.dl.clearState.toNat
  | 0x2C20, 1 => oRo 8 s.flt.haze.toNat
  | 0x2C20, 2 => oRo 4 s.flt.retire.toNat
  | 0x3081, 1 => oRo 1 s.fab.circuits
  | 0x3081, 2 => oRo 1 s.fab.rings
  | 0x3081, 3 => oRo 4 s.fab.retired.toNat
  | 0x3081, 4 => oDomain .rw s.fab.routeTbl
  | 0x3081, 5 => oRo 4 s.fab.updates.toNat
  | 0x3081, 6 => oRo 4 s.fab.unrouted.toNat
  | 0x3180, n => if 1 ≤ n && n ≤ 255 then oRo 2 (circuitWord s n) else none
  | 0x3801, 1 => oRo 4 s.svc.received.toNat
  | 0x3801, 2 => oRo 4 s.svc.accepted.toNat
  | 0x3801, 3 => oRo 4 s.svc.rejected.toNat
  | 0x3801, 4 => oRo 4 s.svc.done.toNat
  | 0x3801, 5 => oRo 2 (liveRequests s)
  | 0x3801, 6 => oRo 2 (s.svc.slots.filter (fun x => x.2.key.isSome)).length
  | 0x3801, 7 => oRo 2 s.svc.capacity.toNat
  | 0x3801, 8 => oRo 8 s.svc.sentTok.toNat
  | 0x3801, 9 => oRo 4 s.svc.discarded.toNat
  | 0x3801, 10 => oRo 4 s.svc.resends.toNat
  | 0x3802, 1 => oRw 1 s.job.svcControl.toNat
  | 0x3802, 2 => oDomain .rw s.job.svcDesc
  | 0x3802, 3 => oRo 1 (if s.job.placedBy = some .service then jobStateCode s.job.state else 0)
  | 0x3C00, 3 => oRo 1 (runningBankOf s h)
  | 0x3C00, 4 => oRo 1 (bankCode s h 0)
  | 0x3C00, 5 => oRo 1 (bankCode s h 1)
  | 0x3C00, 6 => oRo 4 (setVersion s)
  | 0x3C00, 7 => oRo 4 s.img.fallbacks.toNat
  | 0x3C01, 1 => oDomain .wo []
  | 0x3C01, 2 => oRo 4 s.img.progress.toNat
  | 0x3C02, 1 => oRw 1 s.img.activation.toNat
  | 0x3C02, 2 => oRo 1 s.img.actState.toNat
  | 0x3C10, 1 => oWo 32
  | 0x3C10, 2 => oRo 1 a.state.toNat
  | 0x3C10, 3 => oDomain .ro a.report
  | 0x3C10, 4 => oRo 4 a.signed.toNat
  | 0x3C11, 1 => oBytes .const (identityKey s h)
  | 0x3C11, 2 => oDomain .const (if h = .north then s.fuse.certNorth else s.fuse.certSouth)
  | 0x3C11, 3 => oBytes .const (identityKey s (Half.other h))
  | 0x3C11, 4 => oBytes .const s.fuse.rootHash
  | 0x3C11, 5 => oRo 1 (minSvnOf s h)
  | 0x3C12, 1 => oRo 4 s.img.verifyFails.toNat
  | 0x3C12, 2 => oRo 1 s.img.lastFail.toNat
  | _, _ => none

/-- The highest sub-index of the record at an index, 0 for a variable; none where the index names no object. -/
def highestSub (i : Nat) : Option Nat :=
  let fixed : List (Nat × Nat) :=
    [(0x1000, 0), (0x1001, 0), (0x1017, 0), (0x1018, 4), (0x2000, 5), (0x2002, 7), (0x2010, 6), (0x2020, 0x5A),
     (0x2021, 3), (0x2030, 7), (0x2400, 7), (0x2410, 4), (0x2411, 2), (0x2420, 5), (0x2430, 5), (0x2440, 4),
     (0x2450, 2), (0x2460, 4), (0x2470, 6), (0x2471, 7), (0x2800, 8), (0x2801, 11), (0x2802, 4), (0x2803, 5),
     (0x2804, 2), (0x2810, 7), (0x2820, 2), (0x2C00, 4), (0x2C01, 8), (0x2C02, 0x40), (0x2C10, 4), (0x2C11, 2),
     (0x2C20, 2), (0x3080, 5), (0x3081, 6), (0x3180, 0xFF), (0x3800, 7), (0x3801, 10), (0x3802, 3), (0x3C00, 7),
     (0x3C01, 2), (0x3C02, 2), (0x3C10, 4), (0x3C11, 5), (0x3C12, 2)]
  match fixed.find? (fun x => x.1 == i) with
  | some x => some x.2
  | none =>
    if 0x2480 ≤ i && i < 0x2490 then some 4
    else if 0x3000 ≤ i && i < 0x3048 then some 0x31
    else if 0x3048 ≤ i && i < 0x3058 then some 0x28
    else if 0x3100 ≤ i && i < 0x3120 then some 12
    else if 0x3400 ≤ i && i < 0x3410 then some 9
    else if 0x3810 ≤ i && i < 0x3830 then some 1
    else if 0x4000 ≤ i && i < 0x4200 then some 0xB1
    else if 0x4200 ≤ i && i < 0x4248 then some 0x78
    else none

/-- The rail powers and junction of a rim die (13 Table 13.8). -/
def rimPowerObj (s : State) (n sub : Nat) : Option Obj :=
  let p := tget (0, 0, 0) s.power.rimPower n
  match sub with
  | 1 => oRo 2 p.1.toNat
  | 2 => oRo 2 p.2.1.toNat
  | 3 => oRo 2 p.2.2.toNat
  | 4 => oRo 2 (intNat 2 (tget 0 s.power.rimJunction n))
  | _ => none

/-- An object that a party accesses through the maltster of a half. -/
def objectAt (s : State) (h : Half) (i sub : Nat) : Option Obj :=
  match highestSub i with
  | none => none
  | some 0 =>
    if sub ≠ 0 then none
    else if i = 0x1000 then oConst 4 0
    else if i = 0x1001 then oRo 1 s.can.errorReg.toNat
    else oRw 2 s.can.heartbeat.toNat
  | some top =>
    if sub = 0 then oConst 1 top
    else if 0x2480 ≤ i && i < 0x2490 then rimPowerObj s (i - 0x2480) sub
    else if 0x3000 ≤ i && i < 0x3048 then seamRecord s (i - 0x3000) sub
    else if 0x3048 ≤ i && i < 0x3058 then linkObj s (i - 0x3000) 8 sub
    else if 0x3100 ≤ i && i < 0x3120 then portRecord s (i - 0x3100) sub
    else if 0x3400 ≤ i && i < 0x3410 then stackRecord s (i - 0x3400) sub
    else if 0x3810 ≤ i && i < 0x3830 then
      (if sub = 1 then oBytes .rw (octets (tget 0 s.svc.addrs (i - 0x3810))) else none)
    else if 0x4000 ≤ i && i < 0x4200 then clusterRecord s (i - 0x4000) sub
    else if 0x4200 ≤ i && i < 0x4248 then siteRecord s (i - 0x4200) sub
    else match (recAt i).bind (fun r => stagedObj s r sub) with
      | some o => some o
      | none => match moduleObj s h i sub with
        | some o => some o
        | none => moduleObj2 s h i sub

/-- What the read of an object leaves behind: the wrap count latched (13 R363), a capture discarded once read (09 R263),
a draw used. A cluster whose capture was read shows no state of it while ARM still reads 1 (DESIGN CHOICE, log entry 72). -/
def readEffect (s : State) (i sub : Nat) : State :=
  if i = 0x2440 && sub = 3 then { s with power := { s.power with lifeLatch := s.power.lifeWraps } }
  else if i = 0x2030 && sub = 3 && s.crown.lease != 0 then { s with freeCtr := s.freeCtr + 1 }
  else if 0x4000 ≤ i && i < 0x4200 && sub = 0x0F && clusterHeld s (i - 0x4000)
      && 2 ≤ (clusterAt s (i - 0x4000)).diag.state then
    modCluster s (i - 0x4000) (fun c => { c with diag := { c.diag with
      state := 0, capture := [], free := false, isOpen := false, group := 0, frame := 0 } })
  else s

end Sys2Proof.Machine
end

