-- ==== Sys2Proof/Machine/Images.lean ====
section
/-!
DEFINITION. Image sets and their verification, uploads, defect-list clear requests and attestation reports (spec 17; 14
R379 to R383, R390).
-/
namespace Sys2Proof.Machine
open Sys2Proof

/-! ### Signatures and certificates (17 R437, R439) -/

/-- Context strings of Table 17.1, in ASCII. -/
def ctxManifest : List Byte := [0x50, 0x4C, 0x56, 0x2D, 0x4D, 0x41, 0x4E, 0x49, 0x46, 0x45, 0x53, 0x54]
def ctxClear : List Byte := [0x50, 0x4C, 0x56, 0x2D, 0x43, 0x4C, 0x45, 0x41, 0x52]
def ctxAttest : List Byte := [0x50, 0x4C, 0x56, 0x2D, 0x41, 0x54, 0x54, 0x45, 0x53, 0x54]
def ctxCert : List Byte := [0x50, 0x4C, 0x56, 0x2D, 0x43, 0x45, 0x52, 0x54]

/-- The bytes of a field. -/
def slice (bs : List Byte) (off n : Nat) : List Byte := (bs.drop off).take n

/-- Sizes of a signature and of a certificate. -/
def sigBytes : Nat := 114
def certBytes : Nat := 256

/-- The subject key of a certificate (17 Table 17.2). -/
def certKey (c : List Byte) : List Byte := slice c 32 57
/-- Whether a certificate has its fixed values, a usage bit, and a signature by an issuer's key. -/
def certGood (c issuer : List Byte) (usage : Nat) : Bool :=
  fieldAt c 0 2 == 0x4345 && fieldAt c 2 1 == 1 && bitAt (fieldAt c 3 1) usage &&
  slice c 96 32 == shake256 issuer 32 && ed448Verify issuer ctxCert (slice c 0 128) (slice c 128 sigBytes)
/-- Whether a chain, leaf first, leads to the root, and its leaf has a usage bit. -/
def chainGood (certs : List (List Byte)) (root : List Byte) (usage : Nat) : Bool :=
  match certs with
  | [leaf] => certGood leaf root usage
  | [leaf, mid] => certGood leaf (certKey mid) usage && certGood mid root 0
  | _ => false
/-- Whether a message ends in certificates and a signature by the leaf over every byte before it. -/
def signedBy (bs : List Byte) (certs : List (List Byte)) (ctx : List Byte) : Bool :=
  let body := bs.take (bs.length - sigBytes)
  ed448Verify (certKey (certs.headD [])) ctx body (bs.drop (bs.length - sigBytes))

/-! ### Manifests (17 R440) -/

/-- The size of a chunk and the boundary of images. -/
def chunkBytes : Nat := 4096

/-- Image entry i of a manifest (17 Table 17.4). -/
def imageEntryOf (m : List Byte) (i : Nat) : ImageEntry :=
  let e := slice m (128 + 80 * i) 80
  { type := BitVec.ofNat 8 (fieldAt e 0 1), rev := BitVec.ofNat 8 (fieldAt e 1 1), length := fieldAt e 4 4
    firstSeq := fieldAt e 8 4, digest := slice e 16 64 }

/-- Counts of a manifest header (17 Table 17.3). -/
def manImages (m : List Byte) : Nat := fieldAt m 9 1
def manCerts (m : List Byte) : Nat := fieldAt m 10 1
def manCompat (m : List Byte) : Nat := fieldAt m 11 2
def manChunks (m : List Byte) : Nat := fieldAt m 20 4
def manTotal (m : List Byte) : Nat := fieldAt m 16 4
/-- Offsets of the parts. -/
def compatAt (m : List Byte) : Nat := 128 + 80 * manImages m
def chunksAt (m : List Byte) : Nat := compatAt m + 4 * manCompat m
def certsAt (m : List Byte) : Nat := chunksAt m + 32 * manChunks m
/-- The certificates. -/
def manCertList (m : List Byte) : List (List Byte) :=
  (List.range (manCerts m)).map (fun i => slice m (certsAt m + certBytes * i) certBytes)
/-- The root public key. -/
def manRoot (m : List Byte) : List Byte := slice m 24 57

/-- The first sequence numbers that a list of image entries must have: cluster images take theirs in manifest order. -/
def seqsGood (n : Nat) : List ImageEntry → Bool
  | [] => true
  | e :: r =>
    if e.type = 4#8 then e.firstSeq == n && seqsGood (n + ceilDiv e.length chunkBytes) r
    else e.firstSeq == 0 && e.rev == 0xFF#8 && seqsGood n r
/-- Whether the images are those of a set: one maltster, one rim and one service image, and a cluster image for each of
several revisions. -/
def imagesGood (l : List ImageEntry) : Bool :=
  let count (t : Byte) : Nat := (l.filter (fun e => e.type == t)).length
  let revs := (l.filter (fun e => e.type == 4#8)).map ImageEntry.rev
  count 1 == 1 && count 2 == 1 && count 3 == 1 && revs.length + 3 == l.length && 0 < revs.length && revs.Nodup &&
  l.all (fun e => 0 < e.length) && seqsGood 0 l

/-- Where image i of a set begins, and where the set ends. -/
def imageStarts (at_ : Nat) : List ImageEntry → List Nat
  | [] => [at_]
  | e :: r =>
    let here := ceilDiv at_ chunkBytes * chunkBytes
    here :: imageStarts (here + e.length) r

/-- Whether bytes have the layout of an image set. -/
def layoutGood (bs : List Byte) : Bool :=
  let n := manImages bs
  let es := (List.range n).map (imageEntryOf bs)
  128 ≤ bs.length && fieldAt bs 0 2 == 0x4D46 && fieldAt bs 2 1 == 1 && 4 ≤ n && n ≤ 20 &&
  1 ≤ manCerts bs && manCerts bs ≤ 2 && 1 ≤ manCompat bs && manCompat bs ≤ 1024 &&
  manTotal bs == certsAt bs + certBytes * manCerts bs + sigBytes && imagesGood es &&
  manChunks bs == (es.filter (fun e => e.type == 4#8)).foldl (fun a e => a + ceilDiv e.length chunkBytes) 0 &&
  (imageStarts (manTotal bs) es).getLastD 0 ≤ bs.length

/-- The set that bytes of a good layout hold. -/
def imageSetOf (bs : List Byte) : ImageSet :=
  let es := (List.range (manImages bs)).map (imageEntryOf bs)
  { manifest := slice bs 0 (manTotal bs)
    setver := BitVec.ofNat 32 (fieldAt bs 4 4)
    svn := bitsAt (fieldAt bs 8 1) 0 6
    advance := bitAt (fieldAt bs 8 1) 6
    images := es
    compat := (List.range (manCompat bs)).map (fun i => BitVec.ofNat 32 (fieldAt bs (compatAt bs + 4 * i) 4))
    chunks := (List.range (manChunks bs)).map (fun i => slice bs (chunksAt bs + 32 * i) 32)
    payloads := (es.zip (imageStarts (manTotal bs) es)).map (fun x => slice bs x.2 x.1.length) }

/-! ### Verification (17 R441) -/

/-- What the checks of a set find: the number of the first that fails, or the set. -/
inductive Verdict where
  | fails (check : Nat)
  | passes (x : ImageSet)
deriving DecidableEq, Repr

/-- The checks of stage 1, with check 5 applied to every image (17 Table 17.5, upload). A set without the layout of a
manifest fails check 1. -/
def verifySet (rootHash : List Byte) (minSvn : Nat) (bs : List Byte) : Verdict :=
  if !layoutGood bs then .fails 1
  else
    let m := slice bs 0 (manTotal bs)
    let x := imageSetOf bs
    if shake256 (manRoot m) 32 != rootHash then .fails 1
    else if !chainGood (manCertList m) (manRoot m) 1 then .fails 2
    else if !signedBy m (manCertList m) ctxManifest then .fails 3
    else if x.svn < minSvn then .fails 4
    else if (x.images.zip x.payloads).any (fun y => shake256 y.2 64 != y.1.digest) then .fails 5
    else .passes x

/-- A failed check counted (3C12h). Stage Fh: upload. -/
def verifyFailed (s : State) (stage check : Nat) : State :=
  { s with img := { s.img with
    verifyFails := s.img.verifyFails + 1, lastFail := BitVec.ofNat 8 (stage % 16 + 16 * check) } }

/-- A bank of a half's flash written. -/
def setBank (s : State) (h : Half) (b : Nat) (x : Bank) : State :=
  match h, b with
  | .north, 0 => { s with img := { s.img with northA := x } }
  | .north, _ => { s with img := { s.img with northB := x } }
  | .south, 0 => { s with img := { s.img with southA := x } }
  | .south, _ => { s with img := { s.img with southB := x } }

/-- The bank that is not running, of each half, written. -/
def setSpareBanks (s : State) (x : Bank) : State :=
  setBank (setBank s .north (1 - runningBankOf s .north) x) .south (1 - runningBankOf s .south) x

/-- Whether a set carries a cluster image for every chiplet revision of the revision map. -/
def carriesAll (s : State) (x : ImageSet) : Bool := (List.range 72).all (fun n => setCarries x (dieOf s n))

/-- An upload complete (14 R383). -/
def putUpload (s : State) (h : Half) (bs : List Byte) : Put :=
  let s := { s with img := { s.img with progress := BitVec.ofNat 32 bs.length } }
  match verifySet s.fuse.rootHash (minSvnOf s h) bs with
  | .fails c => refuse (setSpareBanks (verifyFailed s 15 c) .invalid) abRange
  | .passes x => if carriesAll s x then done (setSpareBanks s (.valid x)) else refuse (setSpareBanks s .invalid) abRange

/-! ### Clear requests (14 R379, 17 R443) -/

/-- Fields of a clear request. -/
def clrCerts (b : List Byte) : Nat := fieldAt b 3 1
def clrMask (b : List Byte) : Nat := fieldAt b 24 4
def clrCount (b : List Byte) : Nat := bitsAt (fieldAt b 28 2) 0 9
/-- The certificates of a request. -/
def clrCertList (b : List Byte) : List (List Byte) :=
  (List.range (clrCerts b)).map (fun i => slice b (64 + 8 * clrCount b + certBytes * i) certBytes)
/-- The certificate that carries the root: the root key hash is what the chain must meet, so a chain's last certificate
names it by its ISSUER field (17 R439). The root public key that verifies it is the running manifest's. -/
def rootKeyOf (s : State) : List Byte := match s.img.running with
  | some x => manRoot x.manifest
  | none => []
/-- Whether a request is one that the module accepts. -/
def clearGood (s : State) (b : List Byte) : Bool :=
  64 ≤ b.length && fieldAt b 0 2 == 0x434C && fieldAt b 2 1 == 1 && 1 ≤ clrCerts b && clrCerts b ≤ 2 &&
  clrCount b ≤ 256 && b.length == 64 + 8 * clrCount b + certBytes * clrCerts b + sigBytes &&
  (clrMask b == 0) != (clrCount b == 0) && slice b 4 16 == s.fuse.panelSerial &&
  fieldAt b 20 4 == s.dl.generation.toNat && shake256 (rootKeyOf s) 32 == s.fuse.rootHash &&
  chainGood (clrCertList b) (rootKeyOf s) 3 && signedBy b (clrCertList b) ctxClear
/-- A clear request written. -/
def putClear (s : State) (b : List Byte) : Put :=
  if jobHeld s || startingUp s then refuse s abState
  else if !clearGood s b then refuse s abRange
  else
    let es := (List.range (clrCount b)).map (fun i => BitVec.ofNat 64 (fieldAt b (64 + 8 * i) 8))
    done { s with dl := { s.dl with clear := some { kindMask := BitVec.ofNat 32 (clrMask b), entries := es }, clearState := 1 } }
/-- Whether a request clears an entry: never one of manufacture. -/
def clearNames (r : ClearRequest) (e : DWord) : Bool :=
  defOrigin e != 0 && (r.kindMask.getLsbD (defKind e) || r.entries.contains e)

/-! ### Attestation (17 R444 to R447) -/

/-- A DOMAIN in the configuration hash. -/
def domainHash (b : List Byte) : List Byte := if b = [] then List.replicate 64 0 else shake256 b 64
/-- The value of an object as the configuration hash takes it. -/
def configBytes (s : State) (h : Half) (i sub : Nat) : List Byte := match objectAt s h i sub with
  | none => []
  | some o => if o.size.isNone then domainHash o.val else o.val
/-- The sub-indices that enter the hash, in rising index and sub-index; counters do not (17 R445). -/
def configList : List (Nat × List Nat) :=
  [(0x2002, [0, 2, 3, 4, 5, 6]), (0x2410, [0, 2, 3, 4]), (0x2420, [0, 2, 3, 4, 5]), (0x2800, [0, 2, 3, 4, 5, 6, 7, 8]),
   (0x2802, [2, 3]), (0x2803, [2]), (0x3080, [0, 2, 3, 4, 5]), (0x3081, [4]), (0x3800, [0, 2, 3, 4, 5, 6, 7])] ++
  (List.range 32).map (fun p => (0x3810 + p, [1])) ++ [(0x3C00, [0, 2, 3, 4, 5, 6])]
/-- The configuration hash. -/
def configHash (s : State) (h : Half) : List Byte :=
  shake256 (configList.flatMap (fun x => x.2.flatMap (fun sub => configBytes s h x.1 sub))) 64

/-- Entries in rising 64-bit value. -/
def sortInsert (e : DWord) : List DWord → List DWord
  | [] => [e]
  | x :: r => if e.toNat ≤ x.toNat then e :: x :: r else x :: sortInsert e r
/-- The defect list as the report hashes it. -/
def defectHash (s : State) : List Byte :=
  shake256 ((s.dl.entries.foldr sortInsert []).flatMap (fun e => leBytes 8 e.toNat)) 64
/-- The manifest of the bank that is not running. -/
def otherHash (s : State) (h : Half) : List Byte := match bankOf s h (1 - runningBankOf s h) with
  | .valid x => shake256 x.manifest 64
  | _ => List.replicate 64 0

/-- n bytes, zero-filled or cut. -/
def fitBytes (n : Nat) (b : List Byte) : List Byte := b.take n ++ List.replicate (n - b.length) 0

/-- The fixed part of a report (17 Table 17.6). -/
def reportFixed (s : State) (h : Half) (nonce : List Byte) : List Byte :=
  let images := match s.img.running with
    | some x => x.images.length
    | none => 0
  leBytes 2 0x4154 ++ leBytes 1 1 ++ leBytes 1 (if h = .north then 0 else 1) ++ leBytes 4 s.su.startCount.toNat ++
  leBytes 8 s.tick.count.toNat ++ fitBytes 32 nonce ++ fitBytes 16 s.fuse.panelSerial ++ leBytes 1 s.fuse.variant.code ++
  leBytes 2 s.fuse.variant.ceilingMhz ++ leBytes 4 s.fuse.variant.capW ++ leBytes 2 s.fuse.variant.floorMhz ++
  leBytes 2 s.fuse.compat.toNat ++ leBytes 4 s.su.featureMask.toNat ++ leBytes 1 (minSvnOf s h) ++
  leBytes 4 (epochOf s h).toNat ++ leBytes 1 (holderCode s) ++ leBytes 1 (jobStateCode s.job.state) ++
  leBytes 2 s.dl.entries.length ++ leBytes 4 s.dl.generation.toNat ++ leBytes 4 (setVersion s) ++
  shake256 (match s.img.running with
    | some x => x.manifest
    | none => []) 64 ++ defectHash s ++ configHash s h ++
  (List.range 90).flatMap (fun i => leBytes 2 (revWord s i)) ++ leBytes 12 0 ++ otherHash s h ++ leBytes 1 images ++
  leBytes 95 0
/-- The image entries of a report. -/
def reportImages (s : State) : List Byte := match s.img.running with
  | none => []
  | some x => x.images.flatMap (fun e =>
      leBytes 1 e.type.toNat ++ leBytes 1 e.rev.toNat ++ leBytes 2 0 ++ leBytes 4 e.length ++ fitBytes 64 e.digest)
/-- Everything that a report's signature covers. -/
def reportBody (s : State) (h : Half) (nonce : List Byte) : List Byte :=
  reportFixed s h nonce ++ reportImages s ++ identityKey s .north ++ identityKey s .south

/-- A half's attestation objects set. -/
def setAttest (s : State) (h : Half) (a : Attest) : State :=
  match h with
  | .north => { s with attNorth := a }
  | .south => { s with attSouth := a }

/-- A challenge written (17 R446, R447): the snapshot is taken at once. -/
def putChallenge (s : State) (h : Half) (nonce : List Byte) : Put :=
  let a := attestOf s h
  if a.state = 1#8 then refuse s abBusy
  else if nonce.length ≠ 32 then refuse s abLength
  else if !isReady s bitDlist then refuse s abState
  else done (setAttest s h { a with nonce := nonce, state := 1, built := reportBody s h nonce, report := [] })

/-- ATTESTATION_REPORT_READY: the report signed by the identity key of the half. -/
def execAttestationReportReady (h : Half) (s : State) : Host.Outcome State Fault Refusal :=
  let a := attestOf s h
  .next (if a.state = 1#8 then
    setAttest s h { a with state := 2, report := a.built ++ ed448Sign (identitySecret s h) ctxAttest a.built, built := [], signed := a.signed + 1 }
  else s)

end Sys2Proof.Machine
end

