-- ==== Sys2Proof/Machine/StartUp.lean ====
section
/-!
DEFINITION. Start-up from power-good to ready: boot, agreement, training, self-test, the defect list, the broadcast of
cluster firmware, activations, and the loss of the input (spec 14; 01 R13; 02 R449; 10 R284; 11 R298; 13 R340, R341; 15
R402, R411; 16 R418; 17 R441, R442).
-/
namespace Sys2Proof.Machine
open Sys2Proof

/-! ### Loss of power, and what survives it -/

/-- The memory of both halves lost. -/
def loseMemory (s : State) : State := spoilHalf (spoilHalf s .north) .south

/-- Scratchpads lose their contents: self-test patterns, or VSRAM off (14 R375, 13 Table 13.6). -/
def losePads (s : State) : State :=
  { s with mem := { s.mem with
      cells := s.mem.cells.filter (fun c => c.1 < padBase)
      dark := s.mem.dark.filter (fun c => c.1 < padBase)
      epoch := s.mem.epoch + 1, caches := [] } }

/-- The sites after a restart: what is counted since manufacture stays. -/
def coldSites (s : State) : Topo :=
  let t := { State.reset.topo with slateCol := s.topo.slateCol }
  let kept : Tbl SiteRec := (s.topo.sites.filter (fun x => x.2.resets != 0)).map
    (fun x => (x.1, { siteDefault t x.1 with resets := x.2.resets }))
  { t with sites := kept }

/-- The module before step 1: every object at its Default but what the boot flash, the fuses and the panel hold: the
defect list and a held clear request, the banks and the boot bank, the base node ID, the epoch, lifetime energy, the
counts since manufacture. Memory and the messages sent are not touched here. -/
def coldState (s : State) : State :=
  let r := State.reset
  { r with
    pending := s.pending, freeCtr := s.freeCtr, out := s.out, fuse := s.fuse, mem := s.mem
    topo := coldSites s
    dl := { s.dl with northBad := false, southBad := false }
    su := { r.su with startCount := s.su.startCount, outsideBound := s.su.outsideBound }
    img := { r.img with
      bootBank := s.img.bootBank, bootSouth := s.img.bootSouth, northA := s.img.northA, northB := s.img.northB
      southA := s.img.southA, southB := s.img.southB, fallbacks := s.img.fallbacks, session := s.img.session }
    crown := { r.crown with
      epochNorth := s.crown.flashEpoch, epochSouth := s.crown.flashEpoch, flashEpoch := s.crown.flashEpoch }
    can := { r.can with baseNode := s.can.flashBase, flashBase := s.can.flashBase }
    power := { r.power with
      clock := BitVec.ofNat 16 s.fuse.variant.ceilingMhz, clockNow := BitVec.ofNat 16 s.fuse.variant.ceilingMhz
      effective := BitVec.ofNat 32 (capW s), ceiling := BitVec.ofNat 32 (capW s)
      lifeEnergy := s.power.lifeEnergy, lifeWraps := s.power.lifeWraps, savedLife := s.power.savedLife
      savedWraps := s.power.savedWraps } }

/-- LOSS_OF_INPUT (13 R340, R362): the module is off. Memory, counts and settings are lost, with the energy since the
last save. -/
def execLossOfInput (s : State) : Host.Outcome State Fault Refusal :=
  let c := coldState s
  .next (loseMemory { c with
    mem := { c.mem with dark := [], darkIn := [], pending := [], written := [], caches := [] }
    power := { c.power with lifeEnergy := s.power.savedLife, lifeWraps := s.power.savedWraps } })

/-! ### Step 1: boot (14 R371, R381; 16 R417, R418; 17 R441) -/

/-- What stage 1 finds in a bank: a failed check, or the set. Contents were verified when they were written; the fused
minimum may have risen since. -/
def bootCheck (s : State) (h : Half) (b : Nat) : Verdict :=
  match bankOf s h b with
  | .valid x => if x.svn < minSvnOf s h then .fails 4 else .passes x
  | _ => .fails 1

/-- Node IDs of a half (16 R418). -/
def takeNode (s : State) (h : Half) : State :=
  let b := s.can.flashBase.toNat
  match h with
  | .north => { s with can := { s.can with nodeNorth := BitVec.ofNat 8 (b + 2 * bit s.fuse.nidNorth) } }
  | .south => { s with can := { s.can with nodeSouth := BitVec.ofNat 8 (b + 2 * bit s.fuse.nidSouth + 1) } }

/-- The state of a half's port. -/
def setNmt (s : State) (h : Half) (x : NmtState) : State :=
  match h with
  | .north => { s with can := { s.can with nmtNorth := x } }
  | .south => { s with can := { s.can with nmtSouth := x } }
def nmtOf (s : State) (h : Half) : NmtState := if h = .north then s.can.nmtNorth else s.can.nmtSouth

/-- A half's boot state. -/
def setBoot (s : State) (h : Half) (b : BootState) : State :=
  match h with
  | .north => { s with su := { s.su with northBoot := b } }
  | .south => { s with su := { s.su with southBoot := b } }
/-- The bank that a half runs. -/
def setRunningBank (s : State) (h : Half) (b : Nat) : State :=
  match h with
  | .north => { s with img := { s.img with runningBank := BitVec.ofNat 8 b } }
  | .south => { s with img := { s.img with runSouth := BitVec.ofNat 8 b } }
/-- The boot bank of a half. -/
def bootBankOf (s : State) (h : Half) : Nat := (if h = .north then s.img.bootBank else s.img.bootSouth).toNat

/-- A half's maltster in its ROM alone. -/
def runRom (s : State) (h : Half) : State :=
  let s := setBoot s h .romOnly
  { s with su := { s.su with step := max s.su.step 1 } }

/-- A half's maltster running a set: unless its revision is not admitted, its dictionary is up. -/
def runBank (s : State) (h : Half) (b : Nat) (x : ImageSet) : State :=
  let i := if h = .north then 88 else 89
  if !setAdmits s x (dieOf s i) then
    runRom { s with su := { s.su with notAdmitted := s.su.notAdmitted + 1 } } h
  else
    let s := setReady (setBoot (setRunningBank s h b) h .ready) (if h = .north then bitMN else bitMS)
    { s with
      img := { s.img with running := if h = .north || s.su.northBoot != .ready then some x else s.img.running }
      su := { s.su with step := max s.su.step 2 } }

/-- Step 1 of a half. -/
def bootHalf (s : State) (h : Half) : State :=
  let b := bootBankOf s h
  let s := setNmt (takeNode s h) h .operational
  match bootCheck s h b with
  | .passes x => runBank s h b x
  | .fails c =>
    let s := verifyFailed s 1 c
    let s := { s with img := { s.img with fallbacks := s.img.fallbacks + 1 } }
    match bootCheck s h (1 - b) with
    | .passes x => runBank s h (1 - b) x
    | .fails d => runRom (verifyFailed s 1 d) h

/-- 100 ms, in units of 0.25 ns. -/
def boundMs100 : Nat := 400000000

/-- POWER_GOOD of a half (14 R371, R374). -/
def execPowerGood (h : Half) (t : Time) (s : State) : Host.Outcome State Fault Refusal :=
  if bootOf s h != .off then .next s
  else
    let first := bootOf s (Half.other h) == .off
    let late := !first && s.su.firstGood + boundMs100 < t
    let s := { s with su := { s.su with
      startCount := if first then s.su.startCount + 1 else s.su.startCount
      firstGood := if first then t else s.su.firstGood
      lastGood := t
      outsideBound := if late then s.su.outsideBound + 1 else s.su.outsideBound } }
    .next (bootHalf s h)

/-! ### Step 2: agreement (14 R378, R382; 15 R411) -/

/-- The set that a half booted. -/
def bootedSet (s : State) (h : Half) : Option ImageSet := match bankOf s h (runningBankOf s h) with
  | .valid x => some x
  | _ => none

/-- The half whose maltster has the crown at step 2: the south one where it holds or has claimed it (15 R411). -/
def crownHalf (s : State) : Half :=
  if s.crown.holder == some .south || s.crown.claimSouth.isSome then .south else .north

/-- The boot bank of a half set. -/
def setBootBank (s : State) (h : Half) (b : Nat) : State :=
  match h with
  | .north => { s with img := { s.img with bootBank := BitVec.ofNat 8 b } }
  | .south => { s with img := { s.img with bootSouth := BitVec.ofNat 8 b } }

/-- The image sets agreed: where they differ, the half without the crown copies the other's set and restarts from
it. -/
def agreeSets (s : State) : State :=
  let c := crownHalf s
  let o := Half.other c
  match bootedSet s c, bootedSet s o with
  | some x, some y =>
    if x.manifest = y.manifest then s
    else
      let b := 1 - runningBankOf s o
      let t := setBootBank (setBank s o b (.valid x)) o b
      bootHalf { t with su := { t.su with outsideBound := t.su.outsideBound + 1 } } o
  | _, _ => s

/-- Whether both halves run one set. -/
def setsAgree (s : State) : Bool :=
  match bootedSet s .north, bootedSet s .south with
  | some x, some y => x.manifest == y.manifest && s.su.northBoot == .ready && s.su.southBoot == .ready
  | _, _ => false

/-- The defect list in force: the union of the copies that can be read, written to a copy that differs or cannot be read; which
could not is reported (14 R378). -/
def agreeDefects (s : State) (unread : List Half) : State :=
  let copy (h : Half) (l : List DWord) : List DWord := if unread.contains h then [] else l
  let n := copy .north s.dl.northCopy
  let u := n ++ (copy .south s.dl.southCopy).filter (fun e => !n.contains e)
  let s := writeDefects s u
  { s with dl := { s.dl with
    northCopy := u, southCopy := u, northBad := unread.contains .north, southBad := unread.contains .south } }

/-- The crown at step 2: the claim of the highest epoch + 1, acknowledged by the other maltster. A claim that the south
has made stands. -/
def agreeCrown (s : State) : State :=
  let e : Word := match s.crown.holder, s.crown.claimSouth with
    | some .south, _ => s.crown.epochSouth
    | _, some e => e
    | _, none => s.crown.flashEpoch + 1
  let taken := s.crown.holder.isNone
  { s with crown := { s.crown with
    holder := some (crownHalf s)
    epochNorth := e, epochSouth := e, flashEpoch := e, claimNorth := none, claimSouth := none
    peerAck := true, lease := 50, withheld := [], renewal := none
    takes := if taken then s.crown.takes + 1 else s.crown.takes } }

/-! ### Step 3: training (10 R284, 14 R390) -/

/-- Entries of a kind for a unit. -/
def entriesOf (s : State) (kind unit : Nat) : List DWord := s.dl.entries.filter (fun e => defKind e == kind && defUnit e == unit)

/-- Whether a die is admitted by the running set. -/
def dieAdmitted (s : State) (i : Nat) : Bool := match s.img.running with
  | some x => setAdmits s x (dieOf s i)
  | none => false

/-- A defect found: during steps 1 to 4 it waits for step 5, else it is written at once. -/
def foundDefect (s : State) (kind origin unit detail : Nat) : State :=
  if 1 ≤ s.su.step && s.su.step ≤ 4 then
    { s with su := { s.su with found := s.su.found ++ [defEntry kind origin unit detail s.su.startCount.toNat] } }
  else addDefect s kind origin unit detail

/-- A site whose seam domain is retired, or which is not admitted. -/
def siteDark (s : State) (n : Nat) : Bool := !(entriesOf s 3 n).isEmpty || !dieAdmitted s n
/-- Whether an end of a direction is dark. -/
def linkDark (s : State) (key : Nat) : Bool :=
  let dark (u : Nat) : Bool := u < 72 && (siteAt s u).state == .dark
  dark (key / 16) || dark (keyPeer key)

/-- One direction trained with lanes that failed newly: its new state; the new lanes and a retirement are defects. -/
def trainLink (origin : Nat) (fresh : List Nat) (s : State) (key : Nat) : State :=
  let u := key / 16
  let d := key % 16
  if linkDark s key then modLink s key (fun r => { r with state := .down })
  else if !((entriesOf s 2 u).filter (fun e => defDetail e % 16 == d)).isEmpty || (linkAt s key).state == .retired then
    modLink s key (fun r => { r with state := .retired })
  else
    let old := ((entriesOf s 1 u).filter (fun e => defDetail e % 16 == d)).map (fun e => defDetail e / 16 % 128)
    let known := (linkAt s key).failed
    let new := fresh.filter (fun l => !old.contains l && !known.contains l)
    let all := (old ++ known ++ new).foldl (fun a l => setInsert l a) []
    let s := new.foldl (fun a l => foundDefect a 1 origin u (d + 16 * l)) s
    let st := if all.length ≤ 4 then LinkState.full else if 32 ≤ seamLanes - all.length then .narrow else .retired
    let s := modLink s key (fun r => { r with state := st, spares := min 4 all.length, failed := all, narrow := [], inRow := 0, traced := [], paused := false })
    if st = .retired then foundDefect s 2 origin u d else s

/-- Lanes of a report that belong to a direction. -/
def lanesOf (l : List LaneFail) (key : Nat) : List Nat := (l.filter (fun x => dirKey x.dir == key)).map (fun x => x.lane.val)

/-- The directions that a start trains: every one, or those with an end in a tripped half. -/
def trainedDirs (h : Half → Bool) : List Nat := allDirs.filter (fun key => h (linkHalf (key / 16)) || h (linkHalf (keyPeer key)))

/-- The directions of some halves trained; every unit learns what is not healthy. -/
def trainSeams (s : State) (lanes : List LaneFail) (h : Half → Bool) : State :=
  let s := (trainedDirs h).foldl (fun a key => trainLink 1 (lanesOf lanes key) a key) s
  let s := { s with noc := { s.noc with masks := [] } }
  allDirs.foldl (fun a key => if (linkAt a key).state == .full then a else tellAll a key) s

/-- Rim dies that take no part in this start: not admitted, a second failure of their image, or retired whole. -/
def rimAbsent (s : State) (r : TrainingReport) (n : Nat) : Bool :=
  !dieAdmitted s (72 + n) || r.rimFail.any (fun x => x.val == n) || (entriesOf s 13 (72 + n)).any (fun e => bitAt (defDetail e) 0)

/-- A port at training: retired by the list or with its rim die, else down with its known failed lanes. One that shares its rim
die with an Ethernet port stays down: there is nothing to train (11 R293). -/
def resetPort (r : TrainingReport) (s : State) (p : Nat) : State :=
  let n := portRim p
  let gone := rimAbsent s r n || (entriesOf s 11 (72 + n)).any (fun e => defDetail e % 32 == p)
  let failed := ((entriesOf s 10 (72 + n)).filter (fun e => defDetail e % 32 == p)).foldl
    (fun v e => v ||| BitVec.ofNat 8 (2 ^ (defDetail e / 32 % 8))) (0#8)
  let eth := s.fab.ethPorts.getLsbD p
  let st := if gone then PortState.retired else if eth then .ethDown else .down
  let s := modPort s p (fun x => { x with state := st, active := 0, failed := failed })
  if gone then { s with
    fab := { s.fab with retired := s.fab.retired ||| BitVec.ofNat 32 (2 ^ p) }
    su := { s.su with portsDone := setInsert p s.su.portsDone } }
  else if besideEthernet s p then { s with su := { s.su with portsDone := setInsert p s.su.portsDone } }
  else s

/-- PORT set once every port is trained or retired. -/
def portsReady (s : State) : State := if s.su.portsDone.length = 32 then setReady s bitPort else s

/-- Stacks trained or retired; failing channels and service cores are defects. -/
def trainStacks (s : State) (r : TrainingReport) (h : Half → Bool) : State :=
  let s := r.channels.foldl (fun a c => foundDefect a 12 1 (72 + c.1.val) c.2.val) s
  let s := r.cores.foldl (fun a c => foundDefect a 14 1 (72 + c.1.val) c.2.val) s
  let s := ((List.range 16).filter (fun n => h (rimHalf n))).foldl (fun a n =>
    let gone := rimAbsent a r n || !(entriesOf a 13 (72 + n)).isEmpty
    modStack a n (fun x => { x with whole := gone })) s
  let up := (List.range 16).filter (fun n => !(stackAt s n).whole)
  setReady { s with su := { s.su with stacksReady := BitVec.ofNat 16 (up.foldl (fun v n => v + 2 ^ n) 0) } } bitStack

/-- Step 3 (14 Table 14.1) of some halves: rails, rim dies, seam links, stacks; ports begin. -/
def stepTraining (s : State) (r : TrainingReport) (h : Half → Bool) : State :=
  let s := setReady s bitRails
  let s := modSites s ((List.range 72).filter (siteDark s)) (fun _ x => { x with state := .dark })
  let s := setReady (trainSeams s r.lanes h) bitSeam
  let s := r.rimFail.foldl (fun a _ => verifyFailed (verifyFailed a 3 1) 3 1) s
  let s := if (List.range 16).any (rimAbsent s r) then s else setReady s bitRim
  let s := ((List.range 32).filter (fun p => h (portHalf p))).foldl (resetPort r) s
  portsReady (trainStacks s r h)

/-- The count of dies not admitted and the features in force (14 R390). -/
def admitDies (s : State) : State :=
  let used := (List.range 90).filter (dieAdmitted s)
  { s with su := { s.su with
    notAdmitted := s.su.notAdmitted + BitVec.ofNat 8 ((List.range 88).filter (fun i => !dieAdmitted s i)).length
    featureMask := used.foldl (fun m i => m &&& tget 0 s.fuse.features i) (BitVec.allOnes 32) } }

/-! ### Step 4: self-test (14 R375) -/

/-- Bits of the start status word (14 Table 14.7) set. -/
def putStart (w : Word) (lo n v : Nat) : Word :=
  BitVec.ofNat 32 (w.toNat - bitsAt w.toNat lo n * 2 ^ lo + v % 2 ^ n * 2 ^ lo)

/-- Sites that are tested: all but the dark ones. -/
def testedSites (s : State) : List Nat := (List.range 72).filter (fun n => (siteAt s n).state != .dark)

/-- Step 4 begins: sites of some halves run their test, and their scratchpads are lost. -/
def stepTest (s : State) (h : Half → Bool) : State :=
  let run := (testedSites s).filter (fun n => h (siteHalf n))
  let s := losePads (modSites s run (fun _ r => { r with start := 1 }))
  { s with su := { s.su with step := 4, tested := s.su.tested.filter (fun n => !h (siteHalf n)) } }

/-- The entry that a test failure calls for; the spare is chosen at step 5. -/
def failureEntry (f : TestFailure) : Nat × Nat :=
  match f with
  | .bankRow l b r => (8, l.val + 8 * b.val + 1024 * r)
  | .cacheGroup g => (9, g)
  | .accMemory l => (5, l.val)
  | .peRow l e r => (6, l.val + 16 * e.val + 256 * r.val)
  | .peCol l e c => (7, l.val + 16 * e.val + 256 * c.val)
  | .engineUnit l => (5, l.val)
  | .droopOrEstimator => (4, 0)

/-! ### Step 5: the defect list (14 R376 to R379) -/

/-- The spare field of a spared entry: its position and the number of spares, by kind. -/
def spareField (kind : Nat) : Nat × Nat :=
  if kind = 6 || kind = 7 then (16, 4) else if kind = 8 then (25, 32) else (20, 64)
/-- The ASSIGNED bit. -/
def assignedBit (kind : Nat) : Nat := if kind = 8 then 30 else 26
/-- The unit whose spares an entry shares: array, bank or die. -/
def sparePool (e : DWord) : Nat :=
  let d := defDetail e
  match defKind e with
  | 6 => d % 128
  | 7 => d % 128
  | 8 => d % 1024
  | _ => 0
/-- The part of the detail that names the defect, without spare and ASSIGNED. -/
def defectName (e : DWord) : Nat := defDetail e % 2 ^ (spareField (defKind e)).1
/-- Whether a kind uses a spare. -/
def isSpared (kind : Nat) : Bool := 6 ≤ kind && kind ≤ 9
/-- Whether an entry's spare is chosen: always for an array, by ASSIGNED otherwise. -/
def spareChosen (e : DWord) : Bool := defKind e == 6 || defKind e == 7 || bitAt (defDetail e) (assignedBit (defKind e))

/-- An entry with its spare chosen: the lowest free one of its pool. Without one, the entry of the unit beyond repair. -/
def chooseSpare (l : List DWord) (e : DWord) : DWord :=
  let k := defKind e
  let f := spareField k
  let pool := l.filter (fun x => defKind x == k && defUnit x == defUnit e && sparePool x == sparePool e && spareChosen x)
  let used := pool.map (fun x => bitsAt (defDetail x) f.1 (if f.2 = 4 then 2 else if f.2 = 32 then 5 else 6))
  let start := bitsAt e.toNat 48 16
  match (List.range f.2).find? (fun i => !used.contains i) with
  | some i =>
    defEntry k (defOrigin e) (defUnit e) (defectName e + i * 2 ^ f.1 + (if k = 8 || k = 9 then 2 ^ assignedBit k else 0)) start
  | none => if k = 9 then defEntry 4 (defOrigin e) (defUnit e) 0 start else defEntry 5 (defOrigin e) (defUnit e) (defDetail e % 8) start

/-- A defect that start-up or a reset found, merged into a list. -/
def mergeFound (start : Nat) (l : List DWord) (e : DWord) : List DWord :=
  if isSpared (defKind e) then
    if l.any (fun x => defCovers x e || (defKind x == defKind e && defUnit x == defUnit e && defectName x == defectName e)) then l
    else defInsert l (chooseSpare l e) start
  else defInsert l e start

/-- The entries written in service with no spare chosen, rewritten. -/
def rewriteSpares (start : Nat) (l : List DWord) : List DWord :=
  l.foldl (fun a e =>
    if isSpared (defKind e) && !spareChosen e then
      let n := chooseSpare a e
      if isSpared (defKind n) then a.map (fun x => if x = e then n else x) else defInsert (a.filter (fun x => x != e)) n start
    else a) l

/-- The repair maps of a site, from the list (05 Table 5.10). -/
def repairOf (s : State) (n : Nat) : Tbl DWord :=
  let put (t : Tbl DWord) (e : DWord) : Tbl DWord :=
    let d := defDetail e
    let lo := 8 * (d / 2 ^ 16 % 4) + (if defKind e = 7 then 32 else 0)
    tmod (BitVec.allOnes 64) t (6 * (d % 8) + d / 16 % 8)
      (fun w => BitVec.ofNat 64 (w.toNat - bitsAt w.toNat lo 8 * 2 ^ lo + (d / 2 ^ 8 % 2 ^ 8) * 2 ^ lo))
  (entriesOf s 6 n ++ entriesOf s 7 n).foldl put []

/-- The local clusters of a site that are retired. -/
def retiredMask (s : State) (n : Nat) : Nat :=
  (List.range 8).foldl (fun v l => v + (if clusterRetired s n l then 2 ^ l else 0)) 0
/-- The TEST field after step 5. -/
def testResult (s : State) (n : Nat) : Nat :=
  if !(entriesOf s 4 n).isEmpty then 4
  else if s.dl.entries.any (fun e => defUnit e == n && [5, 6, 7, 8, 9, 15].contains (defKind e)) then 3 else 2

/-- A site after step 5: its state, its repair maps and its status word. -/
def settleSite (s : State) (n : Nat) (r : SiteRec) : SiteRec :=
  let st := if r.state == .dark || siteDark s n then SiteState.dark
    else if !(entriesOf s 4 n).isEmpty then .forwardOnly
    else if isSlatePos s.topo n then .slateIdle else .running
  { r with
    state := st, repair := repairOf s n
    start := if st = .dark then r.start else putStart (putStart r.start 0 3 (testResult s n)) 16 8 (retiredMask s n) }

/-- Slate positions of the rows, from the list (01 R13). -/
def slateColumns (s : State) : List Nat :=
  (List.range 8).map (fun row => match s.dl.entries.find? (fun e => defKind e == 0 && defUnit e / 9 == row) with
    | some e => defUnit e % 9
    | none => s.topo.slateCol.getD row 4)

/-- The tick starts, its counters at zero (02 R449). -/
def startTick (s : State) : State :=
  if s.tick.on then s
  else { s with tick := { s.tick with
    on := true, count := 0, seq := 0, committed := 0, edgeFault := 0, held := 0, lost := 0, abandoned := 0, stale := 0
    expected := none, inWindow := 0, flywheels := 0, phase := .idle, srcState := if s.tick.cfg.source = 0#8 then 0 else 2 } }

/-- Step 5: the cleared entries leave, spares are chosen, new defects are merged, all in one write. -/
def stepDefects (s : State) : State :=
  let start := s.su.startCount.toNat
  let kept := match s.dl.clear with
    | some r => s.dl.entries.filter (fun e => !clearNames r e)
    | none => s.dl.entries
  let l := s.su.found.foldl (mergeFound start) (rewriteSpares start kept)
  let s := writeDefects s l
  let s := { s with
    dl := { s.dl with clear := none, clearState := if s.dl.clear.isSome then 2 else 0 }
    su := { s.su with found := [], step := 5 }
    topo := { s.topo with slateCol := slateColumns s } }
  let s := modSites s (List.range 72) (settleSite s)
  startTick (setReady (setReady (if jobHeld s then s else spareStacks s) bitTest) bitDlist)

/-! ### Steps 6 and 7: the broadcast (14 R386 to R389; 15 R402) -/

/-- A receiver with nothing received. -/
def receiverEmpty : Receiver := { bitmap := [], chunks := [], ok := false, missing := [], passes := 0 }

/-- The image of a revision in a set, with its manifest index. -/
def clusterImage (x : ImageSet) (rev : Byte) : Option (Nat × ImageEntry) :=
  (x.images.zipIdx.find? (fun e => e.1.type == 4#8 && e.1.rev == rev)).map (fun e => (e.2, e.1))

/-- Sites that receive the broadcast: those whose compute domain is up, and the healthy idle slates (15 R402). -/
def receivingSites (s : State) : List Nat :=
  (List.range 72).filter (fun n => (siteAt s n).state == .running || siteHealthy s n)

/-- Clusters that receive: all of those sites but the retired ones, which run nothing. -/
def receivingClusters (s : State) : List Nat :=
  (receivingSites s).flatMap (fun n => ((List.range 8).filter (fun l => !clusterRetired s n l)).map (fun l => 8 * n + l))

/-- Step 6 begins: a new session, and a receiver for every cluster. -/
def stepBroadcast (s : State) : State :=
  let sites := receivingSites s
  let s := modSites s sites (fun _ r => { r with start := putStart (putStart (putStart r.start 3 3 1) 6 2 0) 8 8 0 })
  { s with
    su := { s.su with step := 6 }
    img := { s.img with
      session := s.img.session + 1, active := true, rounds := 0
      receivers := (receivingClusters s).map (fun k => (k, receiverEmpty)) } }

/-- Whether every site of the running set is verified: FW. -/
def firmwareReady (s : State) : Bool := (runningSet s).all (fun n => bitsAt (siteAt s n).start.toNat 8 8 == 255)

/-- The minimum security versions rise with a set that asks for it (17 R442). -/
def raiseSvn (s : State) : State :=
  match s.img.running with
  | some x => if x.advance && s.su.northBoot == .ready && s.su.southBoot == .ready then
      { s with fuse := { s.fuse with minSvnNorth := max s.fuse.minSvnNorth x.svn, minSvnSouth := max s.fuse.minSvnSouth x.svn } }
    else s
  | none => s

/-- Whether the broadcast is the last step of a move out of Quiet (14 R371). -/
def leavingQuiet (s : State) : Bool := s.power.state == .quiet && s.power.target.isSome
/-- Whether it is an activation. -/
def activating (s : State) : Bool := s.img.actState == 1#8

/-- Step 7 and the end. The spec gives the start-up time its meaning, not its value: a free value. -/
def stepService (s : State) : State :=
  if leavingQuiet s then { s with su := { s.su with step := 8 } }
  else if activating s then
    { setReady s bitSvc with
      su := { s.su with step := 8 }
      img := { s.img with actState := 2, oldSet := none } }
  else
    let d := drawNat (setReady s bitSvc)
    raiseSvn { d.2 with su := { d.2.su with step := 8, timeMs := d.1 % 2 ^ 32 } }

/-- Whether a receiver is finished: verified, or out of rounds. -/
def receiverDone (r : Receiver) : Bool := r.ok || 4 ≤ r.passes

/-- The broadcast ends once every receiver is finished. -/
def endBroadcast (s : State) : State :=
  if s.img.active && s.img.receivers.all (fun r => receiverDone r.2) then
    let s := { s with img := { s.img with active := false } }
    stepService (if firmwareReady s then setReady s bitFw else s)
  else s

/-- Steps 5 and 6 once every site is tested; a half that is tripped holds them. -/
def afterTest (s : State) : State :=
  if s.su.step = 4 && s.power.state != .tripped && (testedSites s).all (fun n => s.su.tested.contains n) then
    endBroadcast (stepBroadcast (stepDefects s))
  else s

/-- START_UP_AGREEMENT (14 R371): at step 2, with both halves booted, the agreement and the training of step 3; at step
3 of a recovery from a trip, the training alone. -/
def execStartUpAgreement (t : Time) (r : TrainingReport) (s : State) : Host.Outcome State Fault Refusal :=
  let s := { s with svc := { s.svc with now := max s.svc.now t } }
  if s.su.step = 2 && s.su.northBoot == .ready && s.su.southBoot == .ready && s.power.state != .tripped then
    let s := agreeSets s
    if setsAgree s then
      let s := admitDies (agreeCrown (agreeDefects s r.unread))
      let s := { s with
        su := { s.su with step := 3 }
        power := { s.power with trippedN := false, trippedS := false } }
      .next (afterTest (stepTest (stepTraining s r (fun _ => true)) (fun _ => true)))
    else .next s
  else if s.su.step = 3 && s.power.state != .tripped then
    let half (h : Half) : Bool := if h = .north then s.power.trippedN else s.power.trippedS
    let u := stepTest (stepTraining s r half) half
    .next (afterTest { u with power := { u.power with trippedN := false, trippedS := false } })
  else .next s

/-- SELF_TEST_COMPLETE (14 R375). -/
def execSelfTestComplete (n : Site) (failures : List TestFailure) (s : State) : Host.Outcome State Fault Refusal :=
  if s.su.step = 4 && s.power.state != .tripped && (testedSites s).contains n.val && !s.su.tested.contains n.val then
    let s := failures.foldl (fun a f => foundDefect a (failureEntry f).1 1 n.val (failureEntry f).2) s
    .next (afterTest { s with su := { s.su with tested := setInsert n.val s.su.tested } })
  else .next s

/-! ### Receivers -/

/-- A receiver changed. -/
def modReceiver (s : State) (k : Nat) (f : Receiver → Receiver) : State :=
  { s with img := { s.img with receivers := (s.img.receivers.map (fun r => if r.1 = k then (r.1, f r.2) else r)) } }

/-- The status word of a site that receives: VERIFIED, and IMAGE once every cluster is verified or one has failed. -/
def noteReceivers (s : State) (n : Nat) : State :=
  let mine := s.img.receivers.filter (fun r => r.1 / 8 == n)
  let v := mine.foldl (fun a r => a + (if r.2.ok then 2 ^ (r.1 % 8) else 0)) 0
  let image := if mine.any (fun r => !r.2.ok && 4 ≤ r.2.passes) then 3 else if mine.all (fun r => r.2.ok) then 2 else 1
  modSite s n (fun r => { r with start := putStart (putStart r.start 8 8 v) 3 3 image })

/-- A full bitmap: the whole image against its digest. -/
def checkImage (s : State) (k : Nat) (e : ImageEntry) : State :=
  match tfind s.img.receivers k with
  | none => s
  | some r =>
    let n := ceilDiv e.length chunkBytes
    if r.bitmap.length < n || r.ok then s
    else
      let data := (List.range n).flatMap (fun i => tget [] r.chunks (e.firstSeq + i))
      if shake256 (data.take e.length) 64 = e.digest then
        noteReceivers (modReceiver s k (fun r => { r with ok := true, missing := [] })) (k / 8)
      else modReceiver (verifyFailed s 5 2) k (fun r => { r with bitmap := [], chunks := [] })

/-- FIRMWARE_CHUNK_RECEIVED (14 R387, R389): a chunk or repair chunk of the cluster's own image. -/
def execFirmwareChunkReceived (n : Site) (l : Fin 8) (c : Chunk) (s : State) : Host.Outcome State Fault Refusal :=
  let k := 8 * n.val + l.val
  match s.img.running, tfind s.img.receivers k with
  | some x, some r =>
    (match clusterImage x (tget 0 s.fuse.siteRev n.val) with
     | none => .next s
     | some e =>
       let q := c.seq.toNat
       let mine := e.2.firstSeq ≤ q && q < e.2.firstSeq + ceilDiv e.2.length chunkBytes
       if !s.img.active || s.power.state == .tripped || c.session != s.img.session || c.image.toNat != e.1 || !mine || receiverDone r || r.bitmap.contains q then
         .next s
       else if shake256 c.data 32 != x.chunks.getD q [] then .next (verifyFailed s 5 1)
       else
         let s := modReceiver s k (fun r => { r with bitmap := setInsert q r.bitmap, chunks := tset r.chunks q c.data })
         .next (endBroadcast (checkImage s k e.2)))
  | _, _ => .next s

/-- Runs of numbers that a rising list lacks in a range: first and last of each. -/
def gapRanges (have_ : List Nat) (lo : Nat) : Nat → List (Nat × Nat)
  | 0 => []
  | n + 1 =>
    let rest := gapRanges have_ (lo + 1) n
    if have_.contains lo then rest
    else match rest with
      | (a, b) :: r => if a = lo + 1 then (lo, b) :: r else (lo, lo) :: (a, b) :: r
      | [] => [(lo, lo)]

/-- A cluster that is not verified after the third round: it runs no image; in an activation the old set stays in force
on every cluster and no entry is written. -/
def imageFails (s : State) (k : Nat) : State :=
  if activating s then
    let s := modSites (setReady s bitFw) (receivingSites s) (fun n r => { r with start := putStart (putStart r.start 8 8 (255 - retiredMask s n)) 3 3 2 })
    { s with
      su := { s.su with step := 8 }
      img := { s.img with running := s.img.oldSet, oldSet := none, active := false, actState := 3 } }
  else noteReceivers (addDefect s 15 3 (k / 8) (k % 8)) (k / 8)

/-- END_OF_PASS_RECEIVED (14 R388, R389): a cluster with a full bitmap is silent; another names up to 64 ranges of what
it lacks. The fourth end-of-pass ends the third round. -/
def execEndOfPassReceived (n : Site) (l : Fin 8) (session : Word) (s : State) : Host.Outcome State Fault Refusal :=
  let k := 8 * n.val + l.val
  match tfind s.img.receivers k with
  | none => .next s
  | some r =>
    if !s.img.active || s.power.state == .tripped || session != s.img.session || receiverDone r then .next s
    else
      let gaps := match (s.img.running.bind (fun x => clusterImage x (tget 0 s.fuse.siteRev n.val))) with
        | some e => (gapRanges r.bitmap e.2.firstSeq (ceilDiv e.2.length chunkBytes)).take 64
        | none => []
      let s := modReceiver s k (fun r => { r with passes := r.passes + 1, missing := gaps })
      .next (endBroadcast (if r.passes + 1 < 4 then s else imageFails s k))

/-- REPAIR_REQUEST_RECEIVED (14 R388): the crown maltster learns what a cluster lacks, and a repair round is used. -/
def execRepairRequestReceived (n : Site) (l : Fin 8) (ranges : List (Nat × Nat)) (s : State) : Host.Outcome State Fault Refusal :=
  let k := 8 * n.val + l.val
  match tfind s.img.receivers k with
  | none => .next s
  | some r =>
    if !s.img.active || receiverDone r || r.passes = 0 || ranges.isEmpty then .next s
    else
      let s := modReceiver s k (fun r => { r with missing := ranges.take 64 })
      let used := max (bitsAt (siteAt s n.val).start.toNat 6 2) r.passes
      let s := modSite s n.val (fun x => { x with start := putStart x.start 6 2 used })
      .next { s with img := { s.img with rounds := max s.img.rounds r.passes } }

/-! ### Ports (11 R298; 12 R322) -/

/-- FABRIC_PORT_TRAINED: the lanes that locked, the far end's module ID and the one-way delay. -/
def execFabricPortTrained (p : PortId) (locked : BitVec 8) (peer : BitVec 12) (delay : BitVec 16) (s : State) :
    Host.Outcome State Fault Refusal :=
  let r := portAt s p.val
  if s.su.step < 4 || !(r.state == .down || r.state == .ethDown) || besideEthernet s p.val then .next s
  else
    let u := 72 + portRim p.val
    let origin := if s.su.step = 8 then 2 else 1
    let fresh := (List.range 8).filter (fun l => !locked.getLsbD l && !r.failed.getLsbD l)
    let s := fresh.foldl (fun a l => foundDefect a 10 origin u (p.val + 32 * l)) s
    let failed := r.failed ||| ~~~locked
    let active := ~~~failed
    let s := { s with su := { s.su with portsDone := setInsert p.val s.su.portsDone } }
    if r.state == .ethDown then
      .next (portsReady (modPort s p.val (fun x => { x with
        failed := failed, active := active, state := if active = 0xFF#8 then .ethUp else .ethDown })))
    else if s.fab.laneFloor.toNat ≤ ((List.range 8).filter (fun l => active.getLsbD l)).length then
      .next (portsReady (modPort s p.val (fun x => { x with
        failed := failed, active := active, state := .up, peer := peer, delay := delay, rxSeq := 0, txSeq := 0, buffer := []
        retrying := false, discard := false, resends := 0, xoff := 0, badInRow := [], rxWords := [], arrived := []
        ownXoff := 0, lane := 0, turn := 0, circ := 0, left := 0, high := 0, low := 0 })))
    else
      let s := modPort s p.val (fun x => { x with
        failed := failed, active := active, state := .retired, peer := peer, delay := delay })
      let s := { s with fab := { s.fab with retired := s.fab.retired ||| BitVec.ofNat 32 (2 ^ p.val) } }
      .next (portsReady (foundDefect s 11 origin u p.val))

/-! ### The crown at step 2 (15 R411) -/

/-- SOUTH_MALTSTER_CLAIMS: the north maltster is not heard within 250 ms. -/
def execSouthMaltsterClaims (s : State) : Host.Outcome State Fault Refusal :=
  .next (if s.su.step = 2 && s.su.southBoot == .ready && s.crown.holder.isNone && s.crown.claimSouth.isNone then
    { s with crown := { s.crown with claimSouth := some (s.crown.flashEpoch + 1), flashEpoch := s.crown.flashEpoch + 1 } }
  else s)

/-! ### Activations (14 R384, R385) -/

/-- The set in the bank that is not running, where both halves hold it. -/
def spareSet (s : State) : Option ImageSet :=
  match bankOf s .north (1 - runningBankOf s .north), bankOf s .south (1 - runningBankOf s .south) with
  | .valid x, .valid y => if x.manifest = y.manifest then some x else none
  | _, _ => none

/-- A write to 3C02h:01h. Without a valid uploaded set there is nothing to activate: refused (log entry 52). -/
def putActivation (s : State) (code : Nat) : Put :=
  if 2 < code then refuse s abRange
  else if code = 0 then done { s with img := { s.img with activation := 0 } }
  else if jobHeld s || startingUp s then refuse s abState
  else match spareSet s with
    | none => refuse s abState
    | some x =>
      if code = 1 then
        let s := { clearReady s bitFw with img := { s.img with
          activation := 1, actState := 1, oldSet := s.img.running, running := some x } }
        done (endBroadcast (stepBroadcast s))
      else
        let w := s.power
        let s := losePads { s with img := { s.img with
          bootBank := BitVec.ofNat 8 (1 - runningBankOf s .north), bootSouth := BitVec.ofNat 8 (1 - runningBankOf s .south) } }
        let s := coldState s
        let s := { s with
          img := { s.img with activation := 2 }
          su := { s.su with startCount := s.su.startCount + 1 }
          power := { s.power with
            state := if w.state = .tripped then .tripped else .run
            protect := w.protect, trippedN := w.trippedN, trippedS := w.trippedS } }
        done (bootHalf (bootHalf s .north) .south)

end Sys2Proof.Machine
end

