-- ==== Sys2Proof/Machine/Crown.lean ====
section
/-!
DEFINITION. The crown in service, and the field network's own services: NMT, heartbeats and emergency messages (spec 15
R407 to R410; 16 R417 to R420, R435).
-/
namespace Sys2Proof.Machine
open Sys2Proof

/-! ### The crown -/

def setEpoch (s : State) (h : Half) (e : Word) : State :=
  match h with
  | .north => { s with crown := { s.crown with epochNorth := e } }
  | .south => { s with crown := { s.crown with epochSouth := e } }
def setClaim (s : State) (h : Half) (c : Option Word) : State :=
  match h with
  | .north => { s with crown := { s.crown with claimNorth := c } }
  | .south => { s with crown := { s.crown with claimSouth := c } }
def setWitness (s : State) (h : Half) (b : Bool) : State :=
  match h with
  | .north => { s with crown := { s.crown with witNorth := b } }
  | .south => { s with crown := { s.crown with witSouth := b } }

/-- A half added to those that withhold commit. -/
def setHalf (h : Half) (l : List Half) : List Half := if l.contains h then l else l ++ [h]

/-- A claimant becomes holder: the take counts. -/
def becomeHolder (s : State) (h : Half) (e : Word) (acked : Bool) : State :=
  let s := setClaim (setEpoch s h e) h none
  { s with crown := { s.crown with
    holder := some h, peerAck := acked, lease := 50, withheld := [], takes := s.crown.takes + 1 } }

/-- The half that claims the crown. -/
def claimant (s : State) : Option Half :=
  if s.crown.claimNorth.isSome then some .north else if s.crown.claimSouth.isSome then some .south else none
/-- The half that sends over the inter-half link: a claimant, else the holder. -/
def crownSender (s : State) : Option Half := match claimant s with
  | some h => some h
  | none => s.crown.holder
/-- The epoch that a half sends: the one that it claims, else the one it holds. -/
def sentEpoch (s : State) (h : Half) : Word := (claimOf s h).getD (epochOf s h)

/-- CROWN_RENEWAL (15 R407): the holder's renewal, or a claimant's claim, goes over the inter-half link. -/
def execCrownRenewal (s : State) : Host.Outcome State Fault Refusal :=
  match crownSender s with
  | none => .next s
  | some h => .next { s with crown := { s.crown with renewal := some (sentEpoch s h) } }

/-- CROWN_RENEWAL_RECEIVED (15 R407, R409): the other maltster acknowledges the epoch it knows; it yields to a higher
one, and its acknowledgement makes a claimant holder. -/
def execCrownRenewalReceived (s : State) : Host.Outcome State Fault Refusal :=
  match crownSender s, s.crown.renewal with
  | some h, some e =>
    let o := Half.other h
    let s := { s with crown := { s.crown with renewal := none } }
    if bootOf s o != .ready || (epochOf s o).toNat > e.toNat then .next s
    else
      let s := setClaim (setEpoch s o e) o none
      if claimOf s h = some e then .next (becomeHolder s h e true)
      else .next { s with crown := { s.crown with peerAck := true, lease := 50, withheld := [] } }
  | _, _ => .next s

/-- CROWN_TAKE (15 R409): the maltster that does not hold the crown claims the next epoch. -/
def execCrownTake (h : Half) (s : State) : Host.Outcome State Fault Refusal :=
  .next (if bootOf s h == .ready && s.crown.holder == some (Half.other h) && (claimOf s h).isNone then
    let e := epochOf s h + 1
    let t := setClaim s h (some e)
    { t with crown := { t.crown with flashEpoch := e } }
  else s)

/-- CROWN_UNCONFIRMED (15 R410): a maltster has had no evidence for 50 ms and withholds commit for its half. -/
def execCrownUnconfirmed (h : Half) (s : State) : Host.Outcome State Fault Refusal :=
  .next (if bootOf s h == .ready && s.crown.holder.isSome then
    let t := setWitness s h false
    { t with crown := { t.crown with
      withheld := setHalf h t.crown.withheld, lease := 0, peerAck := if t.crown.holder = some h then false else t.crown.peerAck } }
  else s)

/-- A witness written to 2030h:05h (15 R408): ignored unless it carries the epoch that the maltster knows or claims. -/
def putWitness (s : State) (h : Half) (e : Word) : Put :=
  if claimOf s h = some e then done (setWitness (becomeHolder s h e false) h true)
  else if epochOf s h = e && s.crown.holder.isSome then
    let t := setWitness s h true
    done { t with crown := { t.crown with
      lease := 50, withheld := t.crown.withheld.filter (fun x => x != h) } }
  else done s

/-- A message sent on a CAN port. -/
def sendCan (s : State) (m : CanMsg) : State := { s with out := { s.out with can := s.out.can ++ [m] } }
/-- The node ID of a half. -/
def nodeOf (s : State) (h : Half) : Nat := (if h = .north then s.can.nodeNorth else s.can.nodeSouth).toNat

/-- CROWN_HEARTBEAT: TPDO1 (16 R420, Table 16.4), in the pre-operational and operational states. -/
def execCrownHeartbeat (h : Half) (s : State) : Host.Outcome State Fault Refusal :=
  if bootOf s h != .ready || nmtOf s h == .initialising then .next s
  else
    let q := if h = .north then s.can.seqNorth else s.can.seqSouth
    let v := holderCode s + 2 ^ 8 * (sentEpoch s h).toNat + 2 ^ 40 * confirmation s h + 2 ^ 48 * bit (h == .south)
      + 2 ^ 49 * bit (claimOf s h).isSome + 2 ^ 64 * q.toNat
    let s := sendCan s (.tpdo1 h (nodeOf s h) (BitVec.ofNat 96 v))
    .next (match h with
      | .north => { s with can := { s.can with seqNorth := s.can.seqNorth + 1 } }
      | .south => { s with can := { s.can with seqSouth := s.can.seqSouth + 1 } })

/-! ### NMT (16 R417, R418) -/

/-- NMT_START. -/
def execNmtStart (h : Half) (s : State) : Host.Outcome State Fault Refusal :=
  .next (if bootOf s h == .off then s else setNmt s h .operational)
/-- NMT_ENTER_PRE_OPERATIONAL. -/
def execNmtEnterPreOperational (h : Half) (s : State) : Host.Outcome State Fault Refusal :=
  .next (if bootOf s h == .off then s else setNmt s h .preOperational)
/-- NMT_RESET_COMMUNICATION: the node ID in force follows the base node ID; the port is pre-operational again. -/
def execNmtResetCommunication (h : Half) (s : State) : Host.Outcome State Fault Refusal :=
  .next (if bootOf s h == .off then s else setNmt (takeNode s h) h .preOperational)
/-- NMT_STOP is ignored. -/
def execNmtStop (_h : Half) (s : State) : Host.Outcome State Fault Refusal := .next s
/-- NMT_RESET_NODE is ignored. -/
def execNmtResetNode (_h : Half) (s : State) : Host.Outcome State Fault Refusal := .next s
/-- NMT_RESET_APPLICATION is ignored. -/
def execNmtResetApplication (_h : Half) (s : State) : Host.Outcome State Fault Refusal := .next s
/-- NMT_HEARTBEAT: the period of 1017h has expired. -/
def execNmtHeartbeat (h : Half) (s : State) : Host.Outcome State Fault Refusal :=
  .next (if bootOf s h == .off then s else sendCan s (.heartbeat h (nodeOf s h) (nmtOf s h)))

/-! ### Emergency messages (16 R435) -/

/-- EMCY_SEND: the oldest waiting record of a port. -/
def execEmcySend (h : Half) (s : State) : Host.Outcome State Fault Refusal :=
  if bootOf s h == .off then .next s
  else
    match (if h = .north then s.can.emcyNorth else s.can.emcySouth) with
    | [] => .next s
    | r :: rest =>
      let code := BitVec.ofNat 16 (0xFF00 + bitsAt r.toNat 64 8)
      let s := sendCan s (.emcy h (nodeOf s h) code s.can.errorReg r)
      .next (match h with
        | .north => { s with can := { s.can with emcyNorth := rest } }
        | .south => { s with can := { s.can with emcySouth := rest } })

end Sys2Proof.Machine
end

