-- ==== Sys2Proof/Machine/Resets.lean ====
section
/-!
DEFINITION. Seam-domain and compute-domain resets, and the power states (spec 10 R290; 14 R391; 13 R342, R360, R361).
-/
namespace Sys2Proof.Machine
open Sys2Proof

/-! ### Seam-domain reset (10 R290) -/

/-- A write to 3000h + s, sub-index 31h. -/
def putSeamReset (s : State) (n code : Nat) : Put :=
  let r := siteAt s n
  match code with
  | 0 => done (if r.seamReq = 1#8 then modSite s n (fun r => { r with seamReq := 0 }) else s)
  | 1 =>
    if r.seamReq = 2#8 then done s
    else if jobHeld s then done (modSite s n (fun r => { r with seamReq := 1 }))
    else done (beginSeamReset s n)
  | 2 => if jobHeld s then refuse s abState else if r.seamReq = 2#8 then done s else done (beginSeamReset s n)
  | _ => refuse s abRange

/-- SEAM_RESET_COMPLETE: the site's links are trained again, with the lanes that failed. -/
def execSeamResetComplete (n : Site) (lanes : List LaneFail) (s : State) : Host.Outcome State Fault Refusal :=
  if (siteAt s n.val).seamReq != 2 then .next s
  else
    let s := modSite s n.val (fun r => { r with seamReq := 0 })
    let keys := siteLinks n.val
    let s := keys.foldl (fun a key => trainLink 2 (lanesOf lanes key) a key) s
    .next (keys.foldl tellAll s)

/-! ### Compute-domain reset (14 R391) -/

/-- The scratchpads and the cache of one site lost. -/
def loseSitePads (s : State) (n : Nat) : State :=
  let mine (key : Nat) : Bool := padBase ≤ key && (key - padBase) / padWindow / 8 == n
  { s with mem := { s.mem with
      cells := s.mem.cells.filter (fun c => !mine c.1)
      dark := s.mem.dark.filter (fun c => !mine c.1)
      epoch := s.mem.epoch + 1
      caches := terase s.mem.caches n } }

/-- A write to 4200h + s, sub-index 05h. -/
def putComputeReset (s : State) (n code : Nat) : Put :=
  let r := siteAt s n
  match code with
  | 0 => done s
  | 1 =>
    if (jobHeld s && r.logical.isSome) || r.state == .dark || r.state == .forwardOnly || r.state == .computeReset || startingUp s then
      refuse s abState
    else
      done (loseSitePads (modSite s n (fun r => { r with state := .computeReset, resetReq := 1, start := 1 })) n)
  | _ => refuse s abRange

/-- COMPUTE_RESET_COMPLETE: the failures of the self-test, and the clusters whose image is verified (14 Table 14.9). -/
def execComputeResetComplete (n : Site) (failures : List TestFailure) (verified : BitVec 8) (s : State) :
    Host.Outcome State Fault Refusal :=
  let k := n.val
  if (siteAt s k).state != .computeReset then .next s
  else
    let start := s.su.startCount.toNat
    let es := failures.map (fun f => defEntry (failureEntry f).1 1 k (failureEntry f).2 start)
    let s := writeDefects s (es.foldl (mergeFound start) s.dl.entries)
    let gone := !(entriesOf s 4 k).isEmpty || !(entriesOf s 3 k).isEmpty
    let bad := (List.range 8).filter (fun l => !verified.getLsbD l && !clusterRetired s k l)
    let s := if gone then s else bad.foldl (fun a l => addDefect a 15 3 k l) s
    let back (r : SiteRec) : SiteState :=
      if gone then .forwardOnly else if isSlatePos s.topo k || r.viaTakeover then .slateIdle else .running
    let image := if gone then 0 else if bad.isEmpty then 2 else 3
    .next (modSite s k (fun r => { r with
      state := back r, resetReq := 0, resets := r.resets + 1, repair := repairOf s k
      start := putStart (putStart (putStart (putStart r.start 0 3 (testResult s k)) 16 8 (retiredMask s k)) 8 8
        (if gone then 0 else verified.toNat)) 3 3 image }))

/-! ### Power states (13 R342, R360, R361) -/

/-- The state of a commanded code. -/
def powerStateOf (code : Nat) : PowerState :=
  match code with
  | 0 => .run
  | 1 => .hold
  | 2 => .park
  | _ => .quiet

/-- Whether both inputs lie within the operating range, 44 V to 56 V. -/
def inputsInRange (s : State) : Bool :=
  let ok (v : BitVec 16) : Bool := 44000 ≤ v.toNat && v.toNat ≤ 56000
  ok s.power.voltNorth && ok s.power.voltSouth

/-- The first code that refuses a power state, if one does. -/
def powerRefusal (s : State) (code : Nat) : Option Word :=
  if s.power.state == .tripped then
    (if 3 < code then some abRange else if code ≠ 0 || !inputsInRange s then some abState else none)
  else if 3 < code then some abRange
  else if jobHeld s && code ≠ 0 then some abState
  else none

/-- The end of a trip: start-up from rim training onwards on each tripped half. -/
def endTrip (s : State) : State :=
  { s with
    power := { s.power with state := .run, protect := 0, target := none, command := 0 }
    su := { s.su with
      step := min s.su.step 3
      tested := if s.su.step ≤ 3 then [] else s.su.tested } }

/-- A power state command taken by both halves. A move out of Quiet runs steps 4 to 6 first (14 R371); one given
during a start-up waits for its end. -/
def applyPower (s : State) (code : Nat) : State :=
  if s.power.state == .tripped then endTrip s
  else if jobHeld s then s
  else
    let quiet := s.power.state == .quiet && powerStateOf code != .quiet && s.su.step = 8
    let s := { s with power := { s.power with command := BitVec.ofNat 8 code, target := some (powerStateOf code) } }
    if quiet then afterTest (stepTest s (fun _ => true)) else s

/-- POWER_STATE_CHANGE_DONE: the object reads the new state. In Quiet the scratchpads are off. -/
def execPowerStateChangeDone (s : State) : Host.Outcome State Fault Refusal :=
  match s.power.target with
  | none => .next s
  | some t =>
    if s.su.step != 8 || s.power.state == .tripped then .next s
    else
      let s := { s with power := { s.power with state := t, target := none } }
      .next (if t = .quiet then losePads s else s)

end Sys2Proof.Machine
end

