-- ==== Sys2Proof/Machine/Dict.lean ====
section
/-!
DEFINITION. Accesses to the dictionary: the order of refusals, writes of every object, staged records, segmented transfers,
commands that cross the halves, and the fabric management channel (spec 16 R419 to R425, R428, R434; 11 R324; 13 R344,
R353; 14 R372, R381).
-/
namespace Sys2Proof.Machine
open Sys2Proof

/-! ### Answers -/

/-- Who waits for an answer: a party, and the management request that it made. -/
structure Asker where
  party : Party
  req   : Option MgmtRequest
deriving DecidableEq, Repr

/-- A management response (16 R433, Tables 16.11 and 16.14): the data, whether they reach the end, the object's size. -/
def mgmtResponse (s : State) (r : MgmtRequest) (reply : Reply) (last : Bool) (size : Nat) : FabPacket :=
  let data := match reply with
    | .data b => b
    | _ => []
  let code := match reply with
    | .abort c => c.toNat
    | _ => 0
  let far := if 8 < data.length then data else []
  let lines := ceilDiv far.length 64
  let high := r.index.toNat + 2 ^ 16 * r.sub.toNat + 2 ^ 24 * r.op.toNat + 2 ^ 27 * bit last + 2 ^ 28 * r.req.toNat
    + 2 ^ 42 * lines + 2 ^ 49 * r.txn.toNat
  let line := leBytes 8 r.offset.toNat ++ leBytes 4 data.length ++ leBytes 4 code ++ leBytes 8 size ++
    (if data.length ≤ 8 then fitBytes 8 data else leBytes 8 0) ++ leBytes 32 0
  { header := mkHeader (headerLow 6 false false false 0 0 (myModule s) r.smod.toNat 0 0) high
    payload := line ++ fitBytes (64 * lines) far }

/-- The kept responses: of each requester the last 64, for 1 s (16 R434). -/
def keepReply (l : List KeptReply) (k : KeptReply) : List KeptReply :=
  let mine (x : KeptReply) : Bool := x.smod == k.smod && x.req == k.req
  let fresh := l.filter (fun x => k.time ≤ x.time + 4000000000)
  let n := (fresh.filter mine).length
  (if 64 ≤ n then (match fresh.find? mine with
    | some o => fresh.erase o
    | none => fresh) else fresh) ++ [k]

/-- An access answered: over CAN in a message of the port, over the fabric in a response that is kept. -/
def respond (s : State) (a : Asker) (i sub : Nat) (reply : Reply) (last : Bool) (size : Nat) : State :=
  match a.req with
  | none => answer s a.party i sub reply
  | some r =>
    let p := mgmtResponse s r reply last size
    let s := sendMgmt s p
    { s with dict := { s.dict with
        kept := keepReply s.dict.kept { smod := r.smod, req := r.req, txn := r.txn, time := r.time, pkt := p } } }

/-- The outcome of a write answered. -/
def respondPut (x : Put) (a : Asker) (i sub : Nat) : State :=
  respond x.1 a i sub (match x.2 with
    | none => .ok
    | some c => .abort c) false 0

/-! ### Who may access what -/

/-- Objects reserved to the owner (16 Table 16.9). -/
def ownerOnly (i sub : Nat) : Bool :=
  [0x2800, 0x2803, 0x2804, 0x3080, 0x3800, 0x3802].contains i || (i == 0x3081 && sub == 4) ||
  (0x3810 ≤ i && i < 0x3830) || (0x4000 ≤ i && i < 0x4200 && (sub == 3 || sub == 0x0D))

/-- Objects that a maltster answers by itself: every other write is carried to the crown maltster (16 R419). -/
def ownHalf (i sub : Nat) : Bool := i == 0x1017 || (i == 0x2030 && sub == 5) || i == 0x3C10 || (i == 0x3C01 && sub == 1)

/-- What a maltster in its ROM alone answers (14 R381). -/
def romIndex (i : Nat) : Bool := (0x2000 ≤ i && i < 0x2400) || (0x3C00 ≤ i && i ≤ 0x3C02)

/-- The largest DOMAIN at an object (16 R423); the other DOMAINs are bounded by their formats. -/
def domainMax (i sub : Nat) : Nat :=
  if (i == 0x2803 || i == 0x3802) && sub == 2 then 2 ^ 26 else if i == 0x2804 then windowMax else 2 ^ 32

/-- Whether another party's transfer to a DOMAIN is in progress. -/
def domainBusy (s : State) (p : Party) (i sub : Nat) : Bool :=
  s.dict.transfers.any (fun t => t.index == i && t.sub == sub && t.party != p)

/-- The object of an access, or the code that refuses it: index, sub-index. -/
def findObject (s : State) (p : Party) (i sub : Nat) : Except Word Obj :=
  let h := partyHalf p
  if (bootOf s h == .romOnly && !romIndex i) || (highestSub i).isNone then .error abNoIndex
  else match objectAt s h i sub with
    | none => .error abNoSub
    | some o => .ok o

/-- The code that refuses a write before the object's own rules: index, sub-index, access right, owner, busy. -/
def writeBarred (s : State) (p : Party) (i sub : Nat) : Option Word :=
  match findObject s p i sub with
  | .error c => some c
  | .ok o =>
    if o.acc == .ro || o.acc == .const then some abWriteRo
    else if ownerOnly i sub && !mayWrite s p then some abOwner
    else if o.size.isNone && domainBusy s p i sub then some abBusy
    else none

/-- Whether the length of a write does not match. -/
def lengthBad (s : State) (p : Party) (i sub n : Nat) : Bool :=
  match findObject s p i sub with
  | .error _ => false
  | .ok o => match o.size with
    | some m => n != m
    | none => domainMax i sub < n

/-- Whether the state bars every write that is carried to the crown maltster: no crown, or a maltster in its ROM. A job
start without a crown is refused with its own reason (14 R373). -/
def crownMissing (s : State) (p : Party) (i sub : Nat) : Bool :=
  (bootOf s (partyHalf p) == .romOnly && !(i == 0x3C01 && sub == 1)) ||
  (!ownHalf i sub && !((i == 0x2803 || i == 0x3802) && sub == 1) && s.crown.holder.isNone)

/-! ### Writes of single objects -/

/-- A write of a port address (12 R339). -/
def putAddress (s : State) (p : Nat) (bs : List Byte) : Put :=
  if jobHeld s then refuse s abState
  else done { s with svc := { s.svc with addrs := tset s.svc.addrs p (ofOctets bs) } }

/-- The entries of a route table (11 Table 11.18). -/
def routesOf (bs : List Byte) : List MgmtRoute :=
  (List.range (bitsAt (fieldAt bs 4 2) 0 12)).map (fun k =>
    let v := fieldAt bs (16 + 8 * k) 8
    { dmod := bitsAt v 0 12, port := bitsAt v 16 5, alt := bitsAt v 24 5, altv := bitAt v 29, dlset := bitAt v 30 })
/-- Whether bytes are a route table: fixed values, length, reserved bits, module IDs. -/
def routesGood (bs : List Byte) : Bool :=
  let n := bitsAt (fieldAt bs 4 2) 0 12
  16 ≤ bs.length && fieldAt bs 0 4 == 0x014D52 && fieldAt bs 4 12 == n && n ≤ 4094 && bs.length == 16 + 8 * n &&
  (List.range n).all (fun k =>
    let v := fieldAt bs (16 + 8 * k) 8
    1 ≤ bitsAt v 0 12 && bitsAt v 0 12 ≤ 0xFFE && bitsAt v 12 4 == 0 && bitsAt v 21 3 == 0 && bitsAt v 31 33 == 0)
/-- Whether the module takes the entries: no module ID twice, its own ID nowhere, every port in fabric mode. -/
def routesAllowed (s : State) (rs : List MgmtRoute) : Bool :=
  decide (rs.map MgmtRoute.dmod).Nodup && rs.all (fun r => r.dmod != myModule s && !s.fab.ethPorts.getLsbD r.port &&
    !(r.altv && s.fab.ethPorts.getLsbD r.alt))
/-- A write of 3081h:04h (11 R324). -/
def putRoutes (s : State) (bs : List Byte) : Put :=
  if jobHeld s then refuse s abState
  else if !routesGood bs || !routesAllowed s (routesOf bs) then refuse s abRange
  else done { s with fab := { s.fab with routeTbl := bs, routes := routesOf bs } }

/-- A write of the window address: 64-byte aligned. -/
def putWindowAddr (s : State) (v : DWord) : Put :=
  if v.toNat % 64 ≠ 0 then refuse s abRange else done { s with dict := { s.dict with window := v } }

/-- A write of the rack budget (13 R353): the fallback ends. -/
def putBudget (s : State) (w : Word) : Put :=
  done { s with power := { s.power with budget := w, onFallback := false } }

/-- A write of the budget timeout: 0, or 100 ms to 600,000 ms. -/
def putTimeout (s : State) (w : Word) : Put :=
  if w = 0 || (100 ≤ w.toNat && w.toNat ≤ 600000) then done { s with power := { s.power with timeout := w } }
  else refuse s abRange

/-- A write of the heartbeat period: 10 ms to 1,000 ms. -/
def putHeartbeat (s : State) (v : Nat) : Put :=
  if 10 ≤ v && v ≤ 1000 then done { s with can := { s.can with heartbeat := BitVec.ofNat 16 v } } else refuse s abRange

/-- A write of an rws field: to the staging copy, unless a commit is pending (16 R424). -/
def putField (s : State) (r : StagedRec) (sub : Nat) (bs : List Byte) : Put :=
  let x := stagingOf s r
  if x.pending then refuse s abState
  else done (setStaging s r { x with fields := tset x.fields sub bs, refused := false })

/-- A refused commit: the staging copy stays, and sub-index 01h reads 05h; a pending commit stays as it was. -/
def refuseCommit (s : State) (r : StagedRec) (c : Word) : Put :=
  let x := stagingOf s r
  refuse (if x.pending then s else setStaging s r { x with refused := true }) c

/-- A commit that has passed its checks. -/
def runCommit (s : State) (r : StagedRec) (atTick : Bool) (t : Time) : State :=
  if atTick then commitPending s r (some t) else commitNow s r

/-- A commit judged and made. -/
def putCommit (s : State) (r : StagedRec) (atTick : Bool) (t : Time) : Put :=
  match commitRefusal s r atTick with
  | some c => refuseCommit s r c
  | none => done (runCommit s r atTick t)

/-- Whether a record's commit acts on both halves' power (13 R344). -/
def crossRecord (r : StagedRec) : Bool := r == .r2410 || r == .r2420

/-- Every object but the staged records' commit control and the power state command. -/
def putObject (s : State) (p : Party) (i sub : Nat) (bs : List Byte) : Put :=
  let v := leNat bs
  let h := partyHalf p
  match recAt i with
  | some r => putField s r sub bs
  | none =>
    if i = 0x1017 then putHeartbeat s v
    else if i = 0x2030 then putWitness s h (BitVec.ofNat 32 v)
    else if i = 0x2430 then
      (match sub with
       | 1 => putBudget s (BitVec.ofNat 32 v)
       | 2 => putTimeout s (BitVec.ofNat 32 v)
       | _ => done { s with power := { s.power with fallback := BitVec.ofNat 32 v } })
    else if i = 0x2802 then putOwnership s p v
    else if i = 0x2803 then
      (if sub = 1 then putControl s p v else done { s with job := { s.job with descriptor := bs } })
    else if i = 0x2804 then (if sub = 1 then putWindowAddr s (BitVec.ofNat 64 v) else writeWindow s bs)
    else if i = 0x2C11 then putClear s bs
    else if i = 0x3081 then putRoutes s bs
    else if i = 0x3802 then
      (if sub = 1 then putSvcControl s p v else done { s with job := { s.job with svcDesc := bs } })
    else if i = 0x3C01 then putUpload s h bs
    else if i = 0x3C02 then putActivation s v
    else if i = 0x3C10 then putChallenge s h bs
    else if 0x3810 ≤ i && i < 0x3830 then putAddress s (i - 0x3810) bs
    else if 0x3000 ≤ i && i < 0x3048 then putSeamReset s (i - 0x3000) v
    else if 0x4200 ≤ i && i < 0x4248 then putComputeReset s (i - 0x4200) v
    else if 0x4000 ≤ i && i < 0x4200 then
      (if sub = 3 then putNumericFlags s (i - 0x4000) v else putDiag s (i - 0x4000) (BitVec.ofNat 64 v))
    else refuse s abWriteRo

/-! ### Writes -/

/-- A command that crosses the halves sent to the other maltster with the crown's epoch. -/
def pushCross (s : State) (a : Asker) (c : CrossCmd) : State :=
  let e := epochOf s (s.crown.holder.getD .north)
  { s with dict := { s.dict with cross := s.dict.cross ++ [{ cmd := c, epoch := e, party := a.party, req := a.req }] } }

/-- A write of commit control. -/
def writeControl (s : State) (a : Asker) (r : StagedRec) (code : Nat) (t : Time) : State :=
  let i := recIndex r
  match code with
  | 3 => respondPut (done (setStaging s r Staging.clean)) a i 1
  | 1 =>
    (match commitRefusal s r (tickRuns s) with
     | some c => respondPut (refuseCommit s r c) a i 1
     | none => if crossRecord r then pushCross s a (.commit r (tickRuns s) t) else respondPut (putCommit s r (tickRuns s) t) a i 1)
  | 2 =>
    (match commitRefusal s r false with
     | some c => respondPut (refuseCommit s r c) a i 1
     | none => if crossRecord r then pushCross s a (.commit r false t) else respondPut (putCommit s r false t) a i 1)
  | _ => respondPut (refuse s abRange) a i 1

/-- A write of the power state command. -/
def writePower (s : State) (a : Asker) (code : Nat) : State :=
  match powerRefusal s code with
  | some c => respondPut (refuse s c) a 0x2411 1
  | none =>
    if jobHeld s then respondPut (done s) a 0x2411 1
    else if !crownConfirmed s then respondPut (refuse s abState) a 0x2411 1
    else pushCross s a (.power (BitVec.ofNat 8 code))

/-- A whole write of an object by a party whose maltster is on (16 R422). -/
def writeObject (s : State) (a : Asker) (i sub : Nat) (bs : List Byte) (t : Time) : State :=
  let p := a.party
  match writeBarred s p i sub with
  | some c => respondPut (refuse s c) a i sub
  | none =>
    if i = 0x3C10 && (attestOf s (partyHalf p)).state = 1#8 then respondPut (refuse s abBusy) a i sub
    else if lengthBad s p i sub bs.length then respondPut (refuse s abLength) a i sub
    else if crownMissing s p i sub then respondPut (refuse s abState) a i sub
    else match recAt i with
      | some r => if sub = 1 then writeControl s a r (leNat bs) t else respondPut (putField s r sub bs) a i sub
      | none => if i = 0x2411 then writePower s a (leNat bs) else respondPut (putObject s p i sub bs) a i sub

/-- Whether a party's maltster answers at all. -/
def isAnswered (s : State) (p : Party) : Bool := bootOf s (partyHalf p) != .off

/-- A write over CAN or the fabric as one command. Its time, where a rule needs one, is the latest known. -/
def clientWrite (s : State) (p : Party) (i sub : Nat) (bs : List Byte) : Host.Outcome State Fault Refusal :=
  .next (if isAnswered s p then writeObject s { party := p, req := none } i sub bs s.svc.now else s)

/-! ### Transfers in segments (16 R423) -/

/-- A party's transfer to or from an object. -/
def findTransfer (s : State) (p : Party) (i sub : Nat) (write : Bool) : Option Transfer :=
  s.dict.transfers.find? (fun t => t.party == p && t.index == i && t.sub == sub && t.write == write)
/-- A party's transfers with an object dropped. -/
def dropTransfer (s : State) (p : Party) (i sub : Nat) : State :=
  { s with dict := { s.dict with
      transfers := s.dict.transfers.filter (fun t => !(t.party == p && t.index == i && t.sub == sub)) } }
/-- A transfer begun or continued. -/
def putTransfer (s : State) (t : Transfer) : State :=
  let s := dropTransfer s t.party t.index t.sub
  { s with dict := { s.dict with transfers := s.dict.transfers ++ [t] } }

/-- The progress object of an upload. -/
def noteProgress (s : State) (i n : Nat) : State :=
  if i = 0x3C01 then { s with img := { s.img with progress := BitVec.ofNat 32 n } } else s

/-- A write segment: the first is checked, the last makes the write. -/
def writeSegment (s : State) (a : Asker) (i sub : Nat) (data : List Byte) (last : Bool) (t : Time) : State :=
  let p := a.party
  let old := findTransfer s p i sub true
  match (if old.isSome then none else writeBarred s p i sub) with
  | some c => respondPut (refuse s c) a i sub
  | none =>
    let bs := (match old with
      | some x => x.data
      | none => []) ++ data
    if last then writeObject (noteProgress (dropTransfer s p i sub) i bs.length) a i sub bs t
    else if domainMax i sub < bs.length then respondPut (refuse (dropTransfer s p i sub) abLength) a i sub
    else
      let x : Transfer := { party := p, index := i, sub := sub, write := true, data := bs, pos := bs.length }
      respondPut (done (noteProgress (putTransfer s x) i bs.length)) a i sub

/-- The contents that a read takes: refused by index, sub-index, right and a transfer in progress. -/
def readBarred (s : State) (p : Party) (i sub : Nat) : Except Word Obj :=
  match findObject s p i sub with
  | .error c => .error c
  | .ok o =>
    if o.acc == .wo then .error abReadWo
    else if o.size.isNone && domainBusy s p i sub then .error abBusy
    else .ok o

/-- n bytes of an object from an offset, answered. A DOMAIN stands as it was at the first segment; the memory window is
read as it goes, its size being the client's. -/
def readPart (s : State) (a : Asker) (i sub off n : Nat) (first : Bool) : State :=
  let p := a.party
  if i = 0x2804 && sub = 2 then
    (match readBarred s p i sub with
     | .error c => respond s a i sub (.abort c) false 0
     | .ok _ =>
       let x := readWindow s off n
       respond x.1 a i sub x.2 false windowMax)
  else
    let old := if first then none else findTransfer s p i sub false
    match (match old with
      | some t => Except.ok t.data
      | none => (readBarred s p i sub).map Obj.val) with
    | .error c => respond (dropTransfer s p i sub) a i sub (.abort c) false 0
    | .ok data =>
      let part := (data.drop off).take n
      let ends := data.length ≤ off + n
      let x : Transfer := { party := p, index := i, sub := sub, write := false, data := data, pos := off + n }
      let s := if ends then readEffect (dropTransfer s p i sub) i sub else putTransfer s x
      respond s a i sub (.data part) ends data.length

/-- Where a segmented read of the memory window stands after a segment: a refused or an empty one ends it. -/
def windowCursor (before after : State) (p : Party) (off n : Nat) : State :=
  let a := before.dict.window.toNat + off
  if n = 0 || (readBarred before p 0x2804 2).toOption.isNone || (windowRefusal before a n).isSome || (windowError before a n).isSome then
    dropTransfer after p 0x2804 2
  else putTransfer after { party := p, index := 0x2804, sub := 2, write := false, data := [], pos := off + n }

/-- USDO_SEGMENT. -/
def execUsdoSegment (p : Party) (index : BitVec 16) (sub : BitVec 8) (seg : Segment) (s : State) :
    Host.Outcome State Fault Refusal :=
  let a : Asker := { party := p, req := none }
  let i := index.toNat
  let n := sub.toNat
  if !isAnswered s p then .next s
  else match seg with
    | .write data last => .next (writeSegment s a i n data last s.svc.now)
    | .read count =>
      let old := findTransfer s p i n false
      let off := (old.map Transfer.pos).getD 0
      let u := readPart s a i n off count old.isNone
      if i = 0x2804 && n = 2 then .next (windowCursor s u p off count) else .next u

/-- USDO_TIMEOUT: no client segment for 1 s. -/
def execUsdoTimeout (p : Party) (s : State) : Host.Outcome State Fault Refusal :=
  let mine := s.dict.transfers.filter (fun t => t.party == p)
  let s := { s with dict := { s.dict with transfers := s.dict.transfers.filter (fun t => t.party != p) } }
  .next (mine.foldl (fun a t => answer a p t.index t.sub (.abort abTimeout)) s)

/-! ### The rows that are writes and reads of named objects -/

/-- JOB_CONTROL_START (16 R429). -/
def execJobControlStart (p : Party) (s : State) : Host.Outcome State Fault Refusal := clientWrite s p 0x2803 1 [1]
/-- JOB_CONTROL_END_AT_COMMIT. -/
def execJobControlEndAtCommit (p : Party) (s : State) : Host.Outcome State Fault Refusal := clientWrite s p 0x2803 1 [2]
/-- JOB_CONTROL_END_NOW. -/
def execJobControlEndNow (p : Party) (s : State) : Host.Outcome State Fault Refusal := clientWrite s p 0x2803 1 [3]
/-- SERVICE_JOB_START (12 R338). -/
def execServiceJobStart (p : Party) (s : State) : Host.Outcome State Fault Refusal := clientWrite s p 0x3802 1 [1]
/-- SERVICE_JOB_END. -/
def execServiceJobEnd (p : Party) (s : State) : Host.Outcome State Fault Refusal := clientWrite s p 0x3802 1 [2]
/-- OWNERSHIP_CLAIM (16 R427). -/
def execOwnershipClaim (p : Party) (s : State) : Host.Outcome State Fault Refusal := clientWrite s p 0x2802 1 [1]
/-- OWNERSHIP_RELEASE. -/
def execOwnershipRelease (p : Party) (s : State) : Host.Outcome State Fault Refusal := clientWrite s p 0x2802 1 [2]
/-- OWNERSHIP_REVOKE. -/
def execOwnershipRevoke (p : Party) (s : State) : Host.Outcome State Fault Refusal := clientWrite s p 0x2802 1 [3]
/-- MEMORY_WINDOW_WRITE (16 R431). -/
def execMemoryWindowWrite (p : Party) (data : List Byte) (s : State) : Host.Outcome State Fault Refusal :=
  clientWrite s p 0x2804 2 data
/-- MEMORY_WINDOW_READ. -/
def execMemoryWindowRead (p : Party) (length : Nat) (s : State) : Host.Outcome State Fault Refusal :=
  .next (if isAnswered s p then readPart s { party := p, req := none } 0x2804 2 0 length true else s)
/-- NUMERIC_FLAGS_CLEAR (03 R83). -/
def execNumericFlagsClear (p : Party) (k : ClusterId) (s : State) : Host.Outcome State Fault Refusal :=
  clientWrite s p (0x4000 + k.val) 3 [0, 0]
/-- DIAGNOSTIC_ARM (09 R261). -/
def execDiagnosticArm (p : Party) (k : ClusterId) (value : DWord) (s : State) : Host.Outcome State Fault Refusal :=
  clientWrite s p (0x4000 + k.val) 0x0D (leBytes 8 value.toNat)
/-- SEAM_RESET_NOW (10 R290). -/
def execSeamResetNow (p : Party) (n : Site) (s : State) : Host.Outcome State Fault Refusal :=
  clientWrite s p (0x3000 + n.val) 0x31 [2]
/-- SEAM_RESET_AT_JOB_END. -/
def execSeamResetAtJobEnd (p : Party) (n : Site) (s : State) : Host.Outcome State Fault Refusal :=
  clientWrite s p (0x3000 + n.val) 0x31 [1]
/-- SEAM_RESET_WITHDRAW. -/
def execSeamResetWithdraw (p : Party) (n : Site) (s : State) : Host.Outcome State Fault Refusal :=
  clientWrite s p (0x3000 + n.val) 0x31 [0]
/-- COMPUTE_DOMAIN_RESET (14 R391). -/
def execComputeDomainReset (p : Party) (n : Site) (s : State) : Host.Outcome State Fault Refusal :=
  clientWrite s p (0x4200 + n.val) 5 [1]
/-- STAGED_FIELD_WRITE (16 R424). -/
def execStagedFieldWrite (p : Party) (r : StagedRec) (sub : BitVec 8) (data : List Byte) (s : State) :
    Host.Outcome State Fault Refusal := clientWrite s p (recIndex r) sub.toNat data
/-- STAGED_COMMIT_AT_TICK. -/
def execStagedCommitAtTick (p : Party) (r : StagedRec) (t : Time) (s : State) : Host.Outcome State Fault Refusal :=
  let s := { s with svc := { s.svc with now := max s.svc.now t } }
  .next (if isAnswered s p then writeObject s { party := p, req := none } (recIndex r) 1 [1] t else s)
/-- STAGED_COMMIT_NOW. -/
def execStagedCommitNow (p : Party) (r : StagedRec) (s : State) : Host.Outcome State Fault Refusal :=
  clientWrite s p (recIndex r) 1 [2]
/-- STAGED_DISCARD. -/
def execStagedDiscard (p : Party) (r : StagedRec) (s : State) : Host.Outcome State Fault Refusal :=
  clientWrite s p (recIndex r) 1 [3]
/-- OBJECT_WRITE (16 R422): an expedited write of any object. -/
def execObjectWrite (p : Party) (index : BitVec 16) (sub : BitVec 8) (data : List Byte) (s : State) :
    Host.Outcome State Fault Refusal := clientWrite s p index.toNat sub.toNat data
/-- POWER_STATE_RUN (13 R361). -/
def execPowerStateRun (p : Party) (s : State) : Host.Outcome State Fault Refusal := clientWrite s p 0x2411 1 [0]
/-- POWER_STATE_HOLD. -/
def execPowerStateHold (p : Party) (s : State) : Host.Outcome State Fault Refusal := clientWrite s p 0x2411 1 [1]
/-- POWER_STATE_PARK. -/
def execPowerStatePark (p : Party) (s : State) : Host.Outcome State Fault Refusal := clientWrite s p 0x2411 1 [2]
/-- POWER_STATE_QUIET. -/
def execPowerStateQuiet (p : Party) (s : State) : Host.Outcome State Fault Refusal := clientWrite s p 0x2411 1 [3]
/-- RACK_BUDGET_WRITE (13 R353). -/
def execRackBudgetWrite (p : Party) (watts : Word) (s : State) : Host.Outcome State Fault Refusal :=
  clientWrite s p 0x2430 1 (leBytes 4 watts.toNat)
/-- CROWN_WITNESS (15 R408). -/
def execCrownWitness (p : Party) (epoch : Word) (s : State) : Host.Outcome State Fault Refusal :=
  clientWrite s p 0x2030 5 (leBytes 4 epoch.toNat)
/-- LIFETIME_ENERGY_READ (13 R363). -/
def execLifetimeEnergyRead (p : Party) (s : State) : Host.Outcome State Fault Refusal :=
  .next (if isAnswered s p then readPart s { party := p, req := none } 0x2440 3 0 8 true else s)
/-- ATTESTATION_CHALLENGE (17 R446). -/
def execAttestationChallenge (p : Party) (nonce : List Byte) (s : State) : Host.Outcome State Fault Refusal :=
  clientWrite s p 0x3C10 1 nonce
/-- IMAGE_SET_UPLOAD (14 R383). -/
def execImageSetUpload (p : Party) (data : List Byte) (s : State) : Host.Outcome State Fault Refusal :=
  clientWrite s p 0x3C01 1 data
/-- ACTIVATION_CLUSTER_SERVICE (14 R384). -/
def execActivationClusterService (p : Party) (s : State) : Host.Outcome State Fault Refusal := clientWrite s p 0x3C02 1 [1]
/-- ACTIVATION_FULL_RESTART. -/
def execActivationFullRestart (p : Party) (s : State) : Host.Outcome State Fault Refusal := clientWrite s p 0x3C02 1 [2]
/-- DEFECT_LIST_CLEAR_REQUEST (14 R379). -/
def execDefectListClearRequest (p : Party) (data : List Byte) (s : State) : Host.Outcome State Fault Refusal :=
  clientWrite s p 0x2C11 1 data
/-- MANAGEMENT_ROUTES_WRITE (11 R324). -/
def execManagementRoutesWrite (p : Party) (data : List Byte) (s : State) : Host.Outcome State Fault Refusal :=
  clientWrite s p 0x3081 4 data

/-! ### The fabric management channel (16 R434) -/

/-- The party of a request. -/
def requester (r : MgmtRequest) : Party := .fabric r.half r.smod r.req
/-- Whether two requests are of one requester. -/
def sameRequester (a b : MgmtRequest) : Bool := a.smod == b.smod && a.req == b.req
/-- Requests of a requester that have no answer yet. -/
def outstanding (s : State) (r : MgmtRequest) : Nat :=
  (s.dict.cross.filter (fun c => c.req.any (sameRequester r))).length + (s.dict.ordered.filter (sameRequester r)).length

/-- A write of a management request: a DOMAIN in packets of rising offset, or a whole object. -/
def mgmtWrite (s : State) (a : Asker) (r : MgmtRequest) : State :=
  let i := r.index.toNat
  let sub := r.sub.toNat
  let dom := match findObject s a.party i sub with
    | .ok o => o.size.isNone
    | .error _ => false
  if !dom then writeObject s a i sub r.data r.time
  else
    let s := if r.offset = 0#64 then dropTransfer s a.party i sub else s
    let at_ := match findTransfer s a.party i sub true with
      | some t => t.pos
      | none => 0
    match writeBarred s a.party i sub with
    | some c => respondPut (refuse s c) a i sub
    | none =>
      if r.offset.toNat ≠ at_ then respondPut (refuse s abBusy) a i sub
      else writeSegment s a i sub r.data r.last r.time

/-- A request executed. -/
def runRequest (s : State) (r : MgmtRequest) : State :=
  let a : Asker := { party := requester r, req := some r }
  let i := r.index.toNat
  let sub := r.sub.toNat
  if 8128 < r.count.toNat then respondPut (refuse s abRange) a i sub
  else match r.op.toNat with
    | 0 => readPart s a i sub r.offset.toNat r.count.toNat (r.offset = 0#64)
    | 1 => mgmtWrite s a r
    | 2 => respondPut (done (dropTransfer s a.party i sub)) a i sub
    | _ => respondPut (refuse s abRange) a i sub

/-- A request that arrives: a repeat of a kept transaction is answered again; a 17th outstanding one is refused; one with
ORD set waits for the earlier ones. -/
def takeRequest (s : State) (r : MgmtRequest) : State :=
  let live := s.dict.kept.filter (fun k => r.time ≤ k.time + 4000000000)
  match live.find? (fun k => k.smod == r.smod && k.req == r.req && k.txn == r.txn) with
  | some k => sendMgmt s k.pkt
  | none =>
    if 16 ≤ outstanding s r then
      respondPut (refuse s abBusy) { party := requester r, req := some r } r.index.toNat r.sub.toNat
    else if r.ord && 0 < outstanding s r then { s with dict := { s.dict with ordered := s.dict.ordered ++ [r] } }
    else runRequest s r

/-- Whether the first waiting request of its requester may run: nothing of that requester is unanswered. -/
def mayRun (s : State) (r : MgmtRequest) : Bool := !s.dict.cross.any (fun c => c.req.any (sameRequester r))

/-- The waiting requests run in order, once each. -/
def runOrdered (s : State) : State :=
  let waiting := s.dict.ordered
  waiting.foldl (fun s r =>
    if mayRun s r && !(s.dict.ordered.takeWhile (fun x => x != r)).any (sameRequester r) then
      runRequest { s with dict := { s.dict with ordered := s.dict.ordered.erase r } } r
    else s) s

/-- The request that a packet holds (16 Tables 16.11 and 16.14). -/
def requestOf (p : Nat) (t : Time) (k : FabPacket) : MgmtRequest :=
  let hi (lo n : Nat) : Nat := hfld k.header (64 + lo) n
  let n := fieldAt k.payload 8 4
  { time := t, half := portHalf p, smod := BitVec.ofNat 12 (hSmod k.header), req := BitVec.ofNat 8 (hi 28 8)
    txn := BitVec.ofNat 15 (hi 49 15), op := BitVec.ofNat 3 (hi 24 3), index := BitVec.ofNat 16 (hi 0 16)
    sub := BitVec.ofNat 8 (hi 16 8), ord := hOrd k.header, last := bitAt k.header.toNat 91
    offset := BitVec.ofNat 64 (fieldAt k.payload 0 8), count := BitVec.ofNat 32 n
    data := if hi 24 3 = 1 then (if n ≤ 8 then slice k.payload 24 n else slice k.payload 64 n) else [] }

/-- A request taken in: its packet, where a port's codewords completed it, leaves that port's buffer. -/
def fetchRequest (s : State) (r : MgmtRequest) : State :=
  let there (p : Nat) : Option FabPacket :=
    (portAt s p).arrived.find? (fun k => hType k.header == 5 && hDmod k.header == myModule s && requestOf p r.time k == r)
  (List.range 32).foldl (fun a p => match there p with
    | some k => (arrive a p k).getD a
    | none => a) s

/-- MANAGEMENT_REQUEST. -/
def execManagementRequest (r : MgmtRequest) (s : State) : Host.Outcome State Fault Refusal :=
  let s := fetchRequest { s with svc := { s.svc with now := max s.svc.now r.time } } r
  .next (if bootOf s r.half == .off || s.fab.moduleId = 0#16 then s else takeRequest s r)

/-- A management response: the oldest request that this module sent to the module that answers is outstanding no more (11 R316,
16 R434). -/
def takeResponse (s : State) (k : FabPacket) : State :=
  match s.fab.sent.find? (fun x => x.cls == 3 && x.dmod == hSmod k.header) with
  | some x => { s with fab := { s.fab with sent := s.fab.sent.erase x } }
  | none => s

/-- MANAGEMENT_FORWARD (11 R324): a management packet on a port is taken in, sent on, or discarded and counted. A vote for this
module has a command of its own. -/
def execManagementForward (port : PortId) (k : FabPacket) (s : State) : Host.Outcome State Fault Refusal :=
  let t := hType k.header
  if !(5 ≤ t && t ≤ 7) || (t = 7 && hDmod k.header = myModule s) then .next s
  else match arrive s port.val k with
    | none => .next s
    | some s =>
      if hDmod k.header != myModule s then .next (forwardMgmt s port.val k)
      else if t = 6 then .next (takeResponse s k)
      else .next (if bootOf s (portHalf port.val) != .off then takeRequest s (requestOf port.val s.svc.now k) else s)

/-! ### Commands that cross the halves (13 R344) -/

/-- The object that a crossing command wrote. -/
def crossObject : CrossCmd → Nat
  | .power _ => 0x2411
  | .commit r _ _ => recIndex r

/-- The effect of an accepted command on both halves; the checks are made again on the state of the moment. -/
def applyCross (s : State) (c : CrossCmd) : Put :=
  match c with
  | .power code => match powerRefusal s code.toNat with
    | some w => refuse s w
    | none => done (applyPower s code.toNat)
  | .commit r atTick t => putCommit s r (atTick && tickRuns s) t

/-- A command that the other maltster refused, or did not answer. -/
def refuseCross (s : State) (c : CrossCmd) : Put :=
  match c with
  | .power _ => refuse s abState
  | .commit r _ _ => refuseCommit s r abState

/-- The oldest crossing command answered. -/
def settleCross (s : State) (accepted : Bool) : State :=
  match s.dict.cross with
  | [] => s
  | x :: rest =>
    let s := { s with dict := { s.dict with cross := rest } }
    let a : Asker := { party := x.party, req := x.req }
    let r := if accepted then applyCross s x.cmd else refuseCross s x.cmd
    runOrdered (respondPut r a (crossObject x.cmd) 1)

/-- Whether the other maltster accepts: it is up, and the epoch is the one that it knows. -/
def crossAccepted (s : State) : Bool :=
  match s.dict.cross, s.crown.holder with
  | x :: _, some h => bootOf s (Half.other h) == .ready && epochOf s (Half.other h) == x.epoch
  | _, _ => false

/-- CROSS_HALF_COMMAND: the other maltster accepts or refuses within 1 ms. -/
def execCrossHalfCommand (s : State) : Host.Outcome State Fault Refusal := .next (settleCross s (crossAccepted s))
/-- CROSS_HALF_TIMEOUT: no answer within 1 ms. -/
def execCrossHalfTimeout (s : State) : Host.Outcome State Fault Refusal := .next (settleCross s false)

end Sys2Proof.Machine
end

