-- ==== Sys2Proof/Machine/Forward.lean ====
section
/-!
DEFINITION. The F-engine commands (spec 05 Table 5.3): the head of the engine's queue starts and takes its effect.
-/
namespace Sys2Proof.Machine
open Sys2Proof

/-- FNOP (05 R136): no effect of its own. -/
def execFnop (k : ClusterId) (e : FSel) (s : State) : Host.Outcome State Fault Refusal :=
  .next (runEngine s k.val (engineCode (.f e)) 0 always (fun s _ => s))

/-- FMM (05 R130, R131). -/
def execFmm (k : ClusterId) (e : FSel) (s : State) : Host.Outcome State Fault Refusal :=
  .next (runEngine s k.val (engineCode (.f e)) 1 (fun s q => mayStartProduct false s k.val (engineCode (.f e)) q)
    (fun s q => matrixMultiply false s k.val (engineCode (.f e)) q))

/-- FLOAD (05 R132). -/
def execFload (k : ClusterId) (e : FSel) (s : State) : Host.Outcome State Fault Refusal :=
  .next (runEngine s k.val (engineCode (.f e)) 2 (fun s q => mayStartSlot false s k.val (engineCode (.f e)) q)
    (fun s q => matrixLoad s k.val (engineCode (.f e)) q))

/-- The mash lane of an F-engine (06 R162). -/
def fLane (e : FSel) : Nat := match e with
  | .f0 => 0
  | .f1 => 1

/-- FDRAIN (05 R133, R134). -/
def execFdrain (k : ClusterId) (e : FSel) (s : State) : Host.Outcome State Fault Refusal :=
  .next (runEngine s k.val (engineCode (.f e)) 3
    (fun s q => mayStartSlot false s k.val (engineCode (.f e)) q && drainReady s k.val (engineCode (.f e)) q (drainOf false (clusterAt s k.val) q (fLane e)))
    (fun s q => drainTile s k.val (engineCode (.f e)) q (drainOf false (clusterAt s k.val) q (fLane e))))

/-- FCLEAR (05 R135). -/
def execFclear (k : ClusterId) (e : FSel) (s : State) : Host.Outcome State Fault Refusal :=
  .next (runEngine s k.val (engineCode (.f e)) 4 (fun s q => mayStartSlot false s k.val (engineCode (.f e)) q)
    (fun s q => matrixClear s k.val (engineCode (.f e)) q))

end Sys2Proof.Machine
end

