-- ==== Sys2Proof/Machine/Issue.lean ====
section
/-!
DEFINITION. The checks that the sequencer makes on each word when it issues it, in their order (spec 04 R90 to R95,
R450; Tables 5.2 to 5.7, 6.1 to 6.15, 7.1 to 7.5, 8.2, 8.3, 9.1).
-/
namespace Sys2Proof.Machine
open Sys2Proof

/-! ### Kinds of engines and their opcodes -/

/-- The kinds of units that a word addresses. -/
inductive Kind where
  | seq | f | g | v | u | m
deriving DecidableEq, Repr

/-- The kind of an engine code; none for a reserved code (01 Table 1.6). -/
def kindOf (e : Nat) : Option Kind :=
  if e < 2 then some .f else if e < 6 then some .g else if e < 8 then some .v
  else if e = 8 then some .u else if e < 11 then some .m else none

/-- Whether engine e of cluster k defines an opcode: GALT (08h) on G2 and G3 of amber clusters only. -/
def opDefined (kd : Kind) (k e op : Nat) : Bool :=
  match kd with
  | .seq => op ≤ 10
  | .f => op ≤ 4
  | .g => op ≤ 7 || (op == 8 && (e == 4 || e == 5) && k % 8 == 7)
  | .v => op ≤ 11
  | .u => op ≤ 2
  | .m => op ≤ 3

/-! ### Operand fields -/

/-- Bit ranges of an operand: lowest bit and length. -/
abbrev Bits := List (Nat × Nat)

/-- The bits that a list of ranges covers. -/
def bitsMask : Bits → Nat
  | [] => 0
  | r :: rs => (2 ^ r.2 - 1) * 2 ^ r.1 ||| bitsMask rs

/-- Whether a word has a bit outside the ranges and below none of its first n bits. -/
def strayBits (w : IWord) (n : Nat) (rs : Bits) : Bool :=
  w.toNat &&& (2 ^ 128 - 1 - (bitsMask rs ||| (2 ^ n - 1))) != 0

/-- The operand bits of an opcode. Bit 71 of FCLEAR and GCLEAR, which no table names, is taken as reserved (DESIGN CHOICE,
log entry 72). -/
def operandBits (kd : Kind) (op : Nat) : Bits :=
  match kd, op with
  | .seq, 1 => [(40, 3), (64, 32)]
  | .seq, 2 => [(40, 3), (64, 32)]
  | .seq, 3 => [(40, 3), (44, 3), (64, 20)]
  | .seq, 4 => [(40, 3), (64, 20)]
  | .seq, 5 => [(64, 20), (96, 5)]
  | .seq, 6 => [(96, 5)]
  | .seq, 7 => [(64, 25)]
  | .seq, 9 => [(64, 21)]
  | .f, 1 => [(40, 55), (96, 11), (108, 3), (112, 6)]
  | .f, 2 => [(40, 31), (72, 3)]
  | .f, 3 => [(40, 31), (72, 3), (76, 9)]
  | .f, 4 => [(68, 3), (72, 3)]
  | .g, 1 => [(40, 55), (96, 11), (108, 3), (112, 10)]
  | .g, 2 => [(40, 31), (72, 3)]
  | .g, 3 => [(40, 31), (72, 3), (76, 19)]
  | .g, 4 => [(68, 3), (72, 3)]
  | .g, 5 => [(40, 31), (72, 4)]
  | .g, 6 => [(40, 29)]
  | .g, 7 => [(40, 35)]
  | .g, 8 => [(40, 72)]
  | .v, 1 => [(40, 36)]
  | .v, 2 => [(40, 35)]
  | .v, 3 => [(40, 9), (52, 6), (64, 32)]
  | .v, 4 => [(40, 12), (56, 2), (64, 32)]
  | .v, 5 => [(40, 6), (52, 6)]
  | .v, 6 => [(40, 9), (52, 6), (64, 32)]
  | .v, 7 => [(40, 12), (56, 2), (64, 32)]
  | .v, 8 => [(40, 6), (52, 7)]
  | .v, 9 => [(40, 6), (52, 6)]
  | .v, 10 => [(40, 24), (68, 11)]
  | .v, 11 => [(40, 24), (68, 27)]
  | .u, 1 => [(40, 85)]
  | .u, 2 => [(40, 24), (118, 6)]
  | .m, 1 => [(40, 80)]
  | .m, 2 => [(40, 80)]
  | .m, 3 => [(40, 45)]
  | _, _ => []

/-- A scaled format at a bit of a word. -/
def scaledAt (w : IWord) (lo : Nat) : Bool := fmtScaled (fmtFld w lo)

/-- The extension fields that an instruction uses; none where it uses no extension word. SO of a drain without a scaled format
and without GRIST is taken as reserved, as OUT2 and SO2 are when unused (DESIGN CHOICE, log entry 72). -/
def extBits (kd : Kind) (op : Nat) (w : IWord) : Bits :=
  let when_ (b : Bool) (r : Bits) : Bits := if b then r else []
  match kd, op with
  | .f, 1 => when_ (scaledAt w 96) [(8, 24)] ++ when_ (scaledAt w 100) [(32, 24)]
  | .f, 3 => when_ (scaledAt w 64) [(8, 24)]
  | .g, 1 => when_ (scaledAt w 96 || bitFld w 120) [(8, 24)] ++ when_ (scaledAt w 100 || bitFld w 121) [(32, 24)]
  | .g, 3 =>
    let sc := scaledAt w 64 || bitFld w 86
    when_ sc [(8, 24)] ++ when_ (bitFld w 93) [(32, 24)] ++ when_ (sc && bitFld w 93) [(56, 24)]
  | .g, 6 => when_ (scaledAt w 64) [(8, 24)]
  | .g, 7 => when_ (scaledAt w 64) [(8, 24)]
  | .g, 8 => [(8, 100)]
  | .v, 1 => when_ (scaledAt w 64 || bitFld w 75) [(8, 24)]
  | .v, 2 => when_ (scaledAt w 64) [(8, 24)]
  | .u, 1 => when_ (bitFld w 122 || bitFld w 123 || bitFld w 124) [(8, 120)]
  | .u, 2 => when_ (bitFld w 122 || bitFld w 123) [(8, 96)]
  | .m, 1 => [(8, 120)]
  | .m, 2 => [(8, 120)]
  | .m, 3 => when_ (bitFld w 83) [(8, 60)]
  | _, _ => []

/-- Whether an opcode's chapter defines an extension word for it. For MSIG it does where RELAY is 1 (09 R249). -/
def extDefined (kd : Kind) (op : Nat) (w : IWord) : Bool :=
  match kd, op with
  | .f, 1 => true
  | .f, 3 => true
  | .g, 1 => true
  | .g, 3 => true
  | .g, 6 => true
  | .g, 7 => true
  | .g, 8 => true
  | .v, 1 => true
  | .v, 2 => true
  | .u, 1 => true
  | .u, 2 => true
  | .m, 1 => true
  | .m, 2 => true
  | .m, 3 => bitFld w 83
  | _, _ => false

/-- Whether the extension word serves a scale operand alone, so that its want is code 07h (R450). -/
def extScaleOnly (kd : Kind) (op : Nat) (w : IWord) : Bool :=
  match kd, op with
  | .f, _ => true
  | .g, 1 => !bitFld w 120 && !bitFld w 121
  | .g, 3 => !bitFld w 86 && !bitFld w 93
  | .g, 8 => false
  | .g, _ => true
  | .v, 1 => !bitFld w 75
  | .v, _ => true
  | _, _ => false

/-! ### The steps of R450 -/

/-- A sync object code with its units (04 Table 4.3). -/
def syncOk (obj n : Nat) : Bool := (obj == 63 && n == 0) || (obj < 48 && 1 ≤ n)

/-- Step 4: the sync fields. -/
def syncFieldsOk (kd : Kind) (op : Nat) (w : IWord) : Bool :=
  syncOk (wWaitObj w) (wWaitN w) && syncOk (wSigObj w) (wSigN w) && !(kd == .seq && wSigObj w != 63) &&
  !(kd == .m && op == 3 && (48 ≤ fld w 49 6 || fld w 57 2 == 3 || (fld w 57 2 ≤ 1 && fld w 59 16 == 0)))

/-- A format code that Table 3.1 defines but a role does not allow. -/
def roleBad (f : BitVec 4) (ok : BitVec 4 → Bool) : Bool := f.toNat ≤ 10 && !ok f
/-- A pairing of two defined operand formats that R68 does not allow. -/
def pairBad (a b : BitVec 4) : Bool := fmtOperand a && fmtOperand b && !fmtPair a b

/-- Step 5: format roles, pairings and transposed MX operands. -/
def formatsBad (kd : Kind) (op : Nat) (ext w : IWord) : Bool :=
  match kd, op with
  | .f, 1 => roleBad (fmtFld w 96) fmtOperand || roleBad (fmtFld w 100) fmtOperand || pairBad (fmtFld w 96) (fmtFld w 100)
  | .f, 2 => roleBad (fmtFld w 64) fmtPreload
  | .g, 1 =>
    let ga := bitFld w 120
    let gb := bitFld w 121
    (!ga && roleBad (fmtFld w 96) fmtOperand) || (!gb && roleBad (fmtFld w 100) fmtOperand) ||
    (!ga && !gb && pairBad (fmtFld w 96) (fmtFld w 100)) ||
    (!ga && bitFld w 118 && fmtMx (fmtFld w 96)) || (!gb && bitFld w 119 && fmtMx (fmtFld w 100))
  | .g, 2 => roleBad (fmtFld w 64) fmtPreload
  | .g, 5 => roleBad (fmtFld w 64) (fun f => f == 1#4 || f == 10#4)
  | .g, 6 => roleBad (fmtFld w 64) (fun f => f == 0#4 || fmtOperand f)
  | .g, 7 => roleBad (fmtFld w 64) (fun f => f != 10#4)
  | .g, 8 =>
    let gd := bitFld w 111
    (!gd && (roleBad (fmtFld w 88) fmtOperand || fmtMx (fmtFld w 88) || pairBad (fmtFld w 88) (fmtFld w 92) ||
      pairBad (fmtFld w 88) (fmtFld ext 32))) ||
    roleBad (fmtFld w 92) fmtOperand || roleBad (fmtFld ext 32) fmtOperand || (bitFld w 110 && fmtMx (fmtFld ext 32))
  | .v, 1 => !bitFld w 75 && roleBad (fmtFld w 64) fmtVector
  | .v, 2 => roleBad (fmtFld w 64) fmtVector
  | .v, 9 => roleBad (fmtFld w 52) fmtVector
  | .u, 1 => roleBad (fmtFld w 118) fmtOperand
  | .u, 2 => roleBad (fmtFld w 118) fmtOperand
  | _, _ => false

/-- Whether an instruction may open a group on a slot: free, and the group open on no other (05 Table 5.2). -/
def canOpen (image : Tbl Nat) (slot group : Nat) : Bool :=
  (tfind image slot).isNone && !image.any (fun x => x.2 == group)
/-- Whether an instruction may act on the group open on a slot. -/
def canContinue (image : Tbl Nat) (slot group : Nat) : Bool := tfind image slot == some group

/-- Whether an instruction breaks a slot and group condition of Table 5.2. -/
def slotsBad (kd : Kind) (op : Nat) (image : Tbl Nat) (w : IWord) : Bool :=
  let low := (fld w 68 3, fld w 72 3)
  match kd, op with
  | .f, 1 => if fld w 112 2 = 1 then !canOpen image (fld w 104 3) (fld w 108 3)
             else !canContinue image (fld w 104 3) (fld w 108 3)
  | .g, 1 => if fld w 112 2 = 1 then !canOpen image (fld w 104 3) (fld w 108 3)
             else !canContinue image (fld w 104 3) (fld w 108 3)
  | .f, 2 => !canOpen image low.1 low.2
  | .g, 2 => !canOpen image low.1 low.2
  | .f, 3 => !canContinue image low.1 low.2
  | .g, 3 => !canContinue image low.1 low.2
  | .f, 4 => !canContinue image low.1 low.2
  | .g, 4 => !canContinue image low.1 low.2
  | .g, 5 => if bitFld w 75 then !canOpen image low.1 low.2 else !canContinue image low.1 low.2
  | .g, 8 =>
    fld w 96 3 == fld w 102 3 || fld w 99 3 == fld w 105 3 ||
    (if bitFld w 108 then !canOpen image (fld w 96 3) (fld w 99 3) else !canContinue image (fld w 96 3) (fld w 99 3)) ||
    (if bitFld w 109 then !canOpen image (fld w 102 3) (fld w 105 3) else !canContinue image (fld w 102 3) (fld w 105 3))
  | _, _ => false

/-- A reserved format code (03 Table 3.1). -/
def fmtReserved (w : IWord) (lo : Nat) : Bool := 11 ≤ fld w lo 4
/-- A drain function code that Table 6.4 defines. -/
def funcDefined (c : Nat) : Bool := isForward c || isDeriv c

/-- Step 7: operands out of range, reserved codes and forbidden combinations. `back` says that the task has a
backward descriptor. -/
def operandsBad (kd : Kind) (op : Nat) (back : Bool) (ext w : IWord) : Bool :=
  let func := fld w 80 4
  match kd, op with
  | .seq, 3 => 6 ≤ fld w 44 3
  | .seq, 7 => fld w 80 4 != 0 && (fld w 64 8 == 0 || fld w 72 8 == 0)
  | .f, 1 => 2 ≤ fld w 112 2 || fmtReserved w 96 || fmtReserved w 100
  | .f, 2 => fmtReserved w 64
  | .f, 3 => fmtReserved w 64 || !isForward func || (fld w 64 4 == 10 && func != 0) || (bitFld w 84 && !back)
  | .g, 1 =>
    2 ≤ fld w 112 2 || fmtReserved w 96 || fmtReserved w 100 || (bitFld w 120 && fld w 96 4 != 0) ||
    (bitFld w 121 && fld w 100 4 != 0) || ((bitFld w 118 || bitFld w 119) && 3 < fld w 88 7)
  | .g, 2 => fmtReserved w 64
  | .g, 3 =>
    let grist := bitFld w 86
    let twin := bitFld w 93
    let mash := bitFld w 84
    fmtReserved w 64 || !funcDefined func || (fld w 64 4 == 10 && func != 0) ||
    (fld w 87 6 != 0 && !grist) || (grist && fld w 64 4 != 0) || (mash && isDeriv func) ||
    (bitFld w 85 && (fld w 76 2 != 3 || fld w 78 2 != 3 || func != 0 || mash || grist || twin || fld w 64 4 != 0)) ||
    (twin && fld w 64 4 == 10) || ((mash || grist || isDeriv func) && !back)
  | .g, 5 => fmtReserved w 64
  | .g, 6 => fmtReserved w 64 || !back
  | .g, 7 => fmtReserved w 64 || 6 < fld w 68 4 || !back
  | .g, 8 => fmtReserved w 88 || fmtReserved w 92 || fmtReserved ext 32 || (bitFld w 111 && fld w 88 4 != 0)
  | .v, 1 => fmtReserved w 64 || (bitFld w 75 && fld w 64 4 != 0) || (bitFld w 74 && fld w 72 2 != 0)
  | .v, 2 => fmtReserved w 64 || (bitFld w 74 && fld w 72 2 != 0)
  | .v, 3 => 5 < fld w 52 4 || 1 < fld w 56 2
  | .v, 4 => fld w 56 2 == 3
  | .v, 5 => 13 < fld w 52 4 || fld w 56 2 != 0
  | .v, 6 => 6 < fld w 52 4 || 1 < fld w 56 2
  | .v, 7 => fld w 56 2 == 3
  | .v, 8 => 4 < fld w 52 4 || fld w 56 2 != 0
  | .v, 9 => fmtReserved w 52 || fld w 52 4 == 0 || fld w 56 2 != 0
  | .v, 11 => fld w 79 16 == 0
  | .u, 1 =>
    fld w 112 2 == 3 || fmtReserved w 118 ||
    (if bitFld w 124 then fld w 114 4 != 0 else !(2 ≤ fld w 114 4 && fld w 114 4 ≤ 5))
  | .u, 2 => fmtReserved w 118
  | .m, 1 => fld w 112 2 == 3 || fld w 40 6 != 0 || fld ext 8 6 != 0
  | .m, 2 => fld w 112 2 == 3 || fld w 40 6 != 0 || fld ext 8 6 != 0
  | .m, 3 => (bitFld w 83 && fld w 57 2 != 0) || (bitFld w 84 && !bitFld w 83)
  | _, _ => false

/-- The stream fault code of a word of a known kind, with its extension word; 0 where it is legal. -/
def checkKind (kd : Kind) (k e : Nat) (c : Cluster) (ext : Option IWord) (w : IWord) : Nat :=
  let op := wOpcode w
  let x := ext.getD 0
  let use := extBits kd op w
  if (ext.isSome && !extDefined kd op w) || (ext.isNone && !use.isEmpty && !extScaleOnly kd op w) then 4
  else if !opDefined kd k e op then 2
  else if !syncFieldsOk kd op w then 6
  else if formatsBad kd op x w then 3
  else if ext.isNone && !use.isEmpty then 7
  else if fld w 36 4 != 0 || (kd == .seq && wEngine w != 0) || strayBits w 40 (operandBits kd op) ||
      (ext.isSome && (fld x 6 2 != 0 || strayBits x 8 use)) || operandsBad kd op c.cur.back.isSome x w ||
      slotsBad kd op (c.engine e).image w then 1
  else 0

/-- The stream fault code of an instruction (R450); 0 where it is legal. A reserved engine code is a reserved code
of the last step. -/
def issueCode (k : Nat) (c : Cluster) (ext : Option IWord) (w : IWord) : Nat :=
  if wClass w = 3 then 1
  else if wClass w = 2 then 4
  else if ext.isSome && (wClass w != 0 || wEngine (ext.getD 0) != wEngine w) then 4
  else if wClass w = 1 then checkKind .seq k 15 c ext w
  else match kindOf (wEngine w) with
    | some kd => checkKind kd k (wEngine w) c ext w
    | none => if syncFieldsOk .f 0 w then 1 else 6

/-! ### The image of slots and groups (05 R126) -/

/-- The image once an instruction has started. -/
def imageAfter (kd : Kind) (op : Nat) (image : Tbl Nat) (w : IWord) : Tbl Nat :=
  let opened (i : Tbl Nat) (b : Bool) (slot group : Nat) : Tbl Nat := if b then tset i slot group else i
  match kd, op with
  | .f, 1 => opened image (fld w 112 2 == 1) (fld w 104 3) (fld w 108 3)
  | .g, 1 => opened image (fld w 112 2 == 1) (fld w 104 3) (fld w 108 3)
  | .f, 2 => tset image (fld w 68 3) (fld w 72 3)
  | .g, 2 => tset image (fld w 68 3) (fld w 72 3)
  | .f, 3 => terase image (fld w 68 3)
  | .g, 3 => terase image (fld w 68 3)
  | .f, 4 => terase image (fld w 68 3)
  | .g, 4 => terase image (fld w 68 3)
  | .g, 5 => opened image (bitFld w 75) (fld w 68 3) (fld w 72 3)
  | .g, 8 => opened (opened image (bitFld w 108) (fld w 96 3) (fld w 99 3)) (bitFld w 109) (fld w 102 3) (fld w 105 3)
  | _, _ => image

end Sys2Proof.Machine
end

