-- ==== Sys2Proof/Machine/Vector.lean ====
section
/-!
DEFINITION. The V-engine commands (spec 07): tile registers, regions, register operations, reductions, conversion
and line access.
-/
namespace Sys2Proof.Machine
open Sys2Proof

/-! ### Tile registers (07 R193, R194) -/

/-- A tile register: 4096 words, row-major. One that nothing wrote in the frame holds free values (log entry 4). -/
def tileReg (s : State) (k e r : Nat) : List Word :=
  match tfind (engineAt s k e).tiles r with
  | some t => t
  | none => (List.range 4096).map (fun i => Config.freeTile s.mem.epoch (((k * 16 + e) * 8 + r) * 4096 + i))

/-- A tile register set. -/
def putTile (s : State) (k e r : Nat) (t : List Word) : State :=
  modEngine s k e (fun x => { x with tiles := tset x.tiles r t })

/-- The rows of a register. -/
def tileRows (t : List Word) : List (List Word) := chunksOf 64 t

/-- NAN_IN where a word of a list is NaN. -/
def wordsNan (ws : List Word) : Flags := if ws.any (fun w => (val32 w).isNan) then flagNanIn else flagNone

/-! ### Regions (07 R196, R197) -/

/-- The layout block of a region at column half h and row half v: quadrant form in a 128 x 128 tile, or standalone. -/
def regionBlock (shape : Bool) (q h v : Nat) : Nat :=
  if shape then 2 * h + v else 4 * (2 * bitsAt q 1 1 + h) + 2 * bitsAt q 0 1 + v

/-- The four blocks of a region as column half, row half and block number. -/
def regionBlocks (shape : Bool) (q : Nat) : List (Nat × Nat × Nat) :=
  [(0, 0), (0, 1), (1, 0), (1, 1)].map (fun p => (p.1, p.2, regionBlock shape q p.1 p.2))

/-- The ranges of a region: its data and the whole lines of its scale rows. -/
def regionRanges (c : BitVec 4) (a sa : Nat) (shape : Bool) (q : Nat) (write : Bool) : List Range :=
  (regionBlocks shape q).flatMap (fun b =>
    { addr := a + b.2.2 * fmtBlockBytes c, len := fmtBlockBytes c, write := write } ::
    (if fmtScaled c then [{ addr := sa + 32 * b.2.2, len := 32, write := write }] else []))

/-- The rows of values of a region. -/
def regionRows (s : State) (c : BitVec 4) (a sa : Nat) (shape : Bool) (q : Nat) : List (List Val) :=
  (List.range 64).map (fun i =>
    blockRow c (engineFetch s) a sa (regionBlock shape q 0 (i / 32)) (i % 32) ++
    blockRow c (engineFetch s) a sa (regionBlock shape q 1 (i / 32)) (i % 32))

/-- The fields of VLD and VST (07 Table 7.2). -/
def vReg (q : QInstr) : Nat := fld q.word 68 3
def vTurn (q : QInstr) : Bool := bitFld q.word 71
def vQuad (q : QInstr) : Nat := fld q.word 72 2
def vShape (q : QInstr) : Bool := bitFld q.word 74
def vDesc (q : QInstr) : Bool := bitFld q.word 75

/-- The effect of VLD (07 R198): every element exactly to FP32; a NaN read sets NAN_IN. With DESC the format stands
in the descriptor at the scale operand. -/
def vectorLoad (s : State) (k e : Nat) (q : QInstr) : State :=
  let scale := extLine q 8
  guarded s k e q (if vDesc q then [{ addr := padAddr k scale, len := 64, write := false }] else []) (fun s =>
    let o := operandOf s k (vDesc q) (fmtFld q.word 64) (lineAt q 40) scale false
    if vDesc q && !descLegal o.fmt then streamFault s k 3 e q.pc
    else
      guarded s k e q (regionRanges o.fmt o.addr o.sa (vShape q) (vQuad q) false) (fun s =>
        let rows := regionRows s o.fmt o.addr o.sa (vShape q) (vQuad q)
        let rows := if vTurn q then turned Val.zero 64 rows else rows
        setFlags (putTile s k e (vReg q) (rows.flatten.map widen)) k q.task
          (rowsNan rows ||| widenFlags rows)))

/-- The writes of a register to a region, with the flags of the conversion (07 R199). -/
def regionWrites (c : BitVec 4) (a sa : Nat) (shape : Bool) (q : Nat) (rows : List (List Word)) : List Write × Flags :=
  let vals := rows.map (fun r => r.map wordVal)
  let ps := (regionBlocks shape q).map (fun b => (b.2.2, packBlock c (pieceOf vals b.2.1 b.1)))
  (ps.flatMap (fun p => (a + p.1 * fmtBlockBytes c, p.2.rows.flatten) ::
      (if fmtScaled c then [(sa + 32 * p.1, p.2.scale)] else [])),
   ps.foldl (fun f p => f ||| p.2.flags) flagNone)

/-- The effect of VST. -/
def vectorStore (s : State) (k e : Nat) (q : QInstr) : State :=
  let t := tileReg s k e (vReg q)
  let rows := if vTurn q then turned 0 64 (tileRows t) else tileRows t
  let o := regionWrites (fmtFld q.word 64) (padAddr k (lineAt q 40)) (padAddr k (extLine q 8)) (vShape q) (vQuad q) rows
  guarded s k e q (writeRanges o.1) (fun s => setFlags (padWrites s k o.1) k q.task (o.2 ||| wordsNan t))

/-! ### Element functions (07 Table 7.5, R202) -/

/-- An element function of three operands with its flags. -/
abbrev ElemFn := Word → Word → Word → Word × Flags

/-- VBIN. -/
def binFn (func : Nat) (a b : Word) : Word × Flags :=
  let r := match func with
    | 0 => add32 a b
    | 1 => sub32 a b
    | 2 => mul32 a b
    | 3 => div32 a b
    | 4 => (max32 a b, flagNone)
    | _ => (min32 a b, flagNone)
  (r.1, r.2 ||| nanIn a ||| nanIn b)

/-- Flags of a function whose bits are free, from the operand and the result: an infinity from a finite operand, or a
zero where the exact value is not zero. -/
def freeFlags (zeroOnlyAtZero : Bool) (a r : Word) : Flags :=
  if (val32 a).isFin then
    (if (val32 r).isInf then flagOverflow else flagNone) |||
    (if (val32 r).isZero && !(zeroOnlyAtZero && (val32 a).isZero) then flagUnderflow else flagNone)
  else flagNone

/-- The natural logarithm. -/
def logFn (a : Word) : Word × Flags :=
  if (val32 a).isZero then (ninf32, flagOverflow)
  else if (val32 a).lt Val.zero then (nan32, flagInvalid)
  else (limited Config.log (fun _ => fixLog a) inf32 nan32 a, flagNone)

/-- VUN of an operand that is not NaN. -/
def unFn (func : Nat) (a : Word) : Word × Flags :=
  match func with
  | 7 => (a ^^^ 0x80000000#32, flagNone)
  | 8 => (a &&& 0x7FFFFFFF#32, flagNone)
  | 9 => sqrt32 a
  | 10 => rsqrt32 a
  | 11 => recip32 a
  | 12 =>
    let r := limited Config.exp fixExp inf32 0 a
    (r, freeFlags false a r)
  | 13 => logFn a
  | _ =>
    let r := forwardFn func a
    if 3 ≤ func && func ≤ 6 then (r.1, r.2 ||| freeFlags (func != 5) a r.1) else r

/-- VUN: a NaN operand gives the canonical NaN and sets NAN_IN. -/
def oneFn (func : Nat) (a : Word) : Word × Flags :=
  if (val32 a).isNan then (nan32, flagNanIn) else unFn func a

/-- The relation of VCMP: EQ, NE, LT, LE, GT, GE, UNORD. -/
def relation (func : Nat) (a b : Word) : Bool :=
  let x := val32 a
  let y := val32 b
  if x.isNan || y.isNan then func == 1 || func == 6
  else match func with
    | 0 => x.eqv y
    | 1 => !x.eqv y
    | 2 => x.lt y
    | 3 => !y.lt x
    | 4 => y.lt x
    | 5 => !x.lt y
    | _ => false

/-- VCMP. -/
def cmpFn (func : Nat) (a b : Word) : Word × Flags := (if relation func a b then one32 else 0, nanIn a ||| nanIn b)

/-- The canonical NaN in place of any NaN. -/
def canonical (w : Word) : Word := if (val32 w).isNan then nan32 else w

/-- VSEL: a where the mask is neither zero nor NaN, else b. -/
def selFn (a b c : Word) : Word × Flags :=
  (canonical (if (val32 c).isZero || (val32 c).isNan then b else a), nanIn a ||| nanIn b ||| nanIn c)

/-- VFMA. Infinity times zero with a NaN addend sets NAN_IN only (DESIGN CHOICE, log entry 72). -/
def fmaFn (a b c : Word) : Word × Flags :=
  let r := fma32 a b c
  (r.1, r.2 ||| nanIn a ||| nanIn b ||| nanIn c)

/-! ### Register operations (07 R200, R201) -/

def vDst (q : QInstr) : Nat := fld q.word 40 3
def vFunc (q : QInstr) : Nat := fld q.word 52 4
def vMode (q : QInstr) : Nat := fld q.word 56 2
def vImm (q : QInstr) : Word := BitVec.ofNat 32 (fld q.word 64 32)
/-- The low and the high BF16 immediate, widened. -/
def vLo (q : QInstr) : Word := BitVec.ofNat 32 (fld q.word 64 16 * 65536)
def vHi (q : QInstr) : Word := BitVec.ofNat 32 (fld q.word 80 16 * 65536)

/-- A register of the same word everywhere. -/
def splat (w : Word) : List Word := List.replicate 4096 w

/-- The operand registers a, b and c. -/
def vA (s : State) (k e : Nat) (q : QInstr) : List Word := tileReg s k e (fld q.word 43 3)
def vB (s : State) (k e : Nat) (q : QInstr) : List Word :=
  if vMode q = 1 then splat (vImm q) else tileReg s k e (fld q.word 46 3)
def vC (s : State) (k e : Nat) (q : QInstr) : List Word := tileReg s k e (fld q.word 49 3)

/-- The result of a register operation written, its flags set and its 4,096 elements counted (07 R210). -/
def putResult (s : State) (k e : Nat) (q : QInstr) (rs : List (Word × Flags)) : State :=
  let s := putTile s k e (vDst q) (rs.map Prod.fst)
  let s := setFlags s k q.task (rs.foldl (fun f r => f ||| r.2) flagNone)
  modEngine s k e (fun x => { x with work := x.work + 4096 })

/-- An element function over three registers. -/
def mapThree (f : ElemFn) (a b c : List Word) : List (Word × Flags) :=
  ((a.zip b).zip c).map (fun p => f p.1.1 p.1.2 p.2)

/-- The effect of VBIN and VCMP. -/
def vectorTwo (f : Nat → Word → Word → Word × Flags) (s : State) (k e : Nat) (q : QInstr) : State :=
  putResult s k e q (List.zipWith (f (vFunc q)) (vA s k e q) (vB s k e q))

/-- The effect of VUN. -/
def vectorOne (s : State) (k e : Nat) (q : QInstr) : State := putResult s k e q ((vA s k e q).map (oneFn (vFunc q)))

/-- The effect of VFMA: with IMODE 10b, b = lo and c = hi. -/
def vectorFma (s : State) (k e : Nat) (q : QInstr) : State :=
  if vMode q = 2 then putResult s k e q (mapThree fmaFn (vA s k e q) (splat (vLo q)) (splat (vHi q)))
  else putResult s k e q (mapThree fmaFn (vA s k e q) (vB s k e q) (vC s k e q))

/-- The effect of VSEL: with IMODE 10b, a = lo and b = hi. -/
def vectorSelect (s : State) (k e : Nat) (q : QInstr) : State :=
  if vMode q = 2 then putResult s k e q (mapThree selFn (splat (vLo q)) (splat (vHi q)) (vC s k e q))
  else putResult s k e q (mapThree selFn (vA s k e q) (vB s k e q) (vC s k e q))

/-! ### Reductions (07 R203, R204) -/

/-- One level of merges: result 2m with result 2m + 1. -/
def mergeLevel : List (DWord × Flags) → List (DWord × Flags)
  | a :: b :: r =>
    let m := mergePair a.1 b.1
    (m.1, a.2 ||| b.2 ||| m.2) :: mergeLevel r
  | l => l

/-- n levels of merges. -/
def mergeTree : Nat → List (DWord × Flags) → List (DWord × Flags)
  | 0, l => l
  | n + 1, l => mergeTree n (mergeLevel l)

/-- A compensated sum of words: six levels, and one rounding (R82). -/
def treeSum (ps : List (DWord × Flags)) : Word × Flags :=
  match mergeTree 6 ps with
  | [] => (0, flagNone)
  | p :: _ =>
    let r := round32 (pairVal p.1)
    (r.1, r.2 ||| p.2)

/-- The reduction of one row or column. -/
def reduce (func : Nat) (ws : List Word) : Word × Flags :=
  let nan := wordsNan ws
  match func with
  | 0 =>
    let r := treeSum (ws.map (fun w => (mkPair w 0, flagNone)))
    (r.1, r.2 ||| nan)
  | 1 =>
    let r := treeSum (ws.map (fun w =>
      let p := mul32 w w
      (mkPair p.1 0, p.2)))
    (r.1, r.2 ||| nan)
  | 2 => ((ws.drop 1).foldl max32 (canonical (ws.headD 0)), nan)
  | 3 => ((ws.drop 1).foldl min32 (canonical (ws.headD 0)), nan)
  | _ => if nan = flagNone then ((ws.map (fun w => w &&& 0x7FFFFFFF#32)).foldl max32 0, nan) else (nan32, nan)

/-- The effect of VRED: AX 0 reduces each row, AX 1 each column, and writes the result across it. -/
def vectorReduce (s : State) (k e : Nat) (q : QInstr) : State :=
  let rows := tileRows (vA s k e q)
  let ax := bitFld q.word 58
  let rs := (if ax then turned 0 64 rows else rows).map (reduce (vFunc q))
  putResult s k e q (if ax then (List.range 64).flatMap (fun _ => rs) else rs.flatMap (fun r => List.replicate 64 r))

/-! ### Conversion (07 R205) -/

/-- A block converted to a format and read back. -/
def readBack (c : BitVec 4) (b : Block) : List (List Val) :=
  let p := packBlock c b
  p.rows.zipIdx.map (fun r =>
    codeVals c (if c = 9#4 then p.scale.headD 0 else p.scale.getD r.2 0) (rowCodes c r.1))

/-- The effect of VCVT: the result of VST and VLD in the format with no scratchpad written. -/
def vectorConvert (s : State) (k e : Nat) (q : QInstr) : State :=
  let a := vA s k e q
  let c : BitVec 4 := BitVec.ofNat 4 (vFunc q)
  let vals := (tileRows a).map (fun r => r.map wordVal)
  let half (v : Nat) : List (List Val) :=
    List.zipWith (fun x y => x ++ y) (readBack c (pieceOf vals v 0)) (readBack c (pieceOf vals v 1))
  let back := half 0 ++ half 1
  let flags := [(0, 0), (0, 1), (1, 0), (1, 1)].foldl
    (fun f p => f ||| (packBlock c (pieceOf vals p.1 p.2)).flags) (wordsNan a ||| widenFlags back)
  putResult s k e q (((back.flatten.map widen).zipIdx).map (fun w => (w.1, if w.2 = 0 then flags else flagNone)))

/-! ### Line access (07 R206) -/

/-- The first element that VLDL and VSTL name. -/
def vSpot (q : QInstr) : Nat := 64 * fld q.word 71 6 + 16 * fld q.word 77 2

/-- The effect of VLDL: 16 words of a line into elements of one row; the other elements stay. -/
def lineLoad (s : State) (k e : Nat) (q : QInstr) : State :=
  let a := padAddr k (lineAt q 40)
  guarded s k e q [{ addr := a, len := 64, write := false }] (fun s =>
    let ws := (chunksOf 4 (readBytes s a 64)).map (fun b => (BitVec.ofNat 32 (leNat b) : Word))
    let t := tileReg s k e (vReg q)
    let t := t.take (vSpot q) ++ ws.map canonical ++ t.drop (vSpot q + 16)
    setFlags (putTile s k e (vReg q) t) k q.task (wordsNan ws))

/-- The effect of VSTL: word w of the line where bit w of WMASK is set. -/
def lineStore (s : State) (k e : Nat) (q : QInstr) : State :=
  let a := padAddr k (lineAt q 40)
  let ws := ((tileReg s k e (vReg q)).drop (vSpot q)).take 16
  let on := ws.zipIdx.filter (fun w => bitFld q.word (79 + w.2))
  guarded s k e q [{ addr := a, len := 64, write := true }] (fun s =>
    setFlags (padWrites s k (on.map (fun w => (a + 4 * w.2, leBytes 4 (canonical w.1).toNat)))) k q.task
      (wordsNan (on.map Prod.fst)))

/-! ### The commands -/

/-- The registers that a V-engine instruction reads. -/
def vReads (q : QInstr) : List Nat :=
  let a := fld q.word 43 3
  let b := fld q.word 46 3
  let c := fld q.word 49 3
  match wOpcode q.word with
  | 2 => [vReg q]
  | 3 => if vMode q = 1 then [a] else [a, b]
  | 4 => if vMode q = 2 then [a] else if vMode q = 1 then [a, c] else [a, b, c]
  | 5 => [a]
  | 6 => if vMode q = 1 then [a] else [a, b]
  | 7 => if vMode q = 2 then [c] else if vMode q = 1 then [a, c] else [a, b, c]
  | 8 => [a]
  | 9 => [a]
  | 10 => [vReg q]
  | 11 => [vReg q]
  | _ => []
/-- The registers that it writes. -/
def vWrites (q : QInstr) : List Nat :=
  match wOpcode q.word with
  | 1 => [vReg q]
  | 10 => [vReg q]
  | 3 => [vDst q]
  | 4 => [vDst q]
  | 5 => [vDst q]
  | 6 => [vDst q]
  | 7 => [vDst q]
  | 8 => [vDst q]
  | 9 => [vDst q]
  | _ => []
/-- The lines that it reads or writes: data, scale rows and descriptor. -/
def vLines (s : State) (k : Nat) (q : QInstr) : List Range :=
  let sc := padAddr k (extLine q 8)
  match wOpcode q.word with
  | 1 =>
    let o := operandOf s k (vDesc q) (fmtFld q.word 64) (lineAt q 40) (extLine q 8) false
    (if vDesc q then [{ addr := sc, len := 64, write := false }] else []) ++
    regionRanges o.fmt o.addr o.sa (vShape q) (vQuad q) false
  | 2 => regionRanges (fmtFld q.word 64) (padAddr k (lineAt q 40)) sc (vShape q) (vQuad q) true
  | 10 => [{ addr := padAddr k (lineAt q 40), len := 64, write := false }]
  | 11 => [{ addr := padAddr k (lineAt q 40), len := 64, write := true }]
  | _ => []

/-- Whether an instruction must wait for an earlier one of its V-engine that is incomplete (07 R207): a register that the earlier
one writes, or reads and this one writes; a line that the earlier one stores, or loads and this one writes. -/
def vBars (s : State) (k : Nat) (f q : QInstr) : Bool :=
  (vWrites f).any (fun r => (vReads q).contains r || (vWrites q).contains r) || (vReads f).any (vWrites q).contains ||
  linesMeet ((vLines s k f).filter (fun r => r.write)) (vLines s k q) ||
  linesMeet ((vLines s k f).filter (fun r => !r.write)) ((vLines s k q).filter (fun r => r.write))

/-- Whether no incomplete instruction of the engine bars one. -/
def vFree (s : State) (k e : Nat) (q : QInstr) : Bool := (engineAt s k e).flight.all (fun f => !vBars s k f.instr q)

/-- The words of a tile register as an engine reads them (08 R240). -/
def tileRange (k e r : Nat) : Range := engineRange k e (2 ^ 17 + 8192 * r) 2048

/-- One V-engine command: its registers are checked as they are read. -/
def runVector (k : ClusterId) (e : VSel) (op : Nat) (eff : State → Nat → Nat → QInstr → State) (s : State) : State :=
  let c := engineCode (.v e)
  runEngine s k.val c op (fun s q => vFree s k.val c q) (fun s q =>
    guarded s k.val c q ((vReads q).map (tileRange k.val c)) (fun s => eff s k.val c q))

/-- VNOP (07 Table 7.1). -/
def execVnop (k : ClusterId) (e : VSel) (s : State) : Host.Outcome State Fault Refusal :=
  .next (runVector k e 0 (fun s _ _ _ => s) s)
/-- VLD. -/
def execVld (k : ClusterId) (e : VSel) (s : State) : Host.Outcome State Fault Refusal :=
  .next (runVector k e 1 vectorLoad s)
/-- VST. -/
def execVst (k : ClusterId) (e : VSel) (s : State) : Host.Outcome State Fault Refusal :=
  .next (runVector k e 2 vectorStore s)
/-- VBIN. -/
def execVbin (k : ClusterId) (e : VSel) (s : State) : Host.Outcome State Fault Refusal :=
  .next (runVector k e 3 (vectorTwo binFn) s)
/-- VFMA. -/
def execVfma (k : ClusterId) (e : VSel) (s : State) : Host.Outcome State Fault Refusal :=
  .next (runVector k e 4 vectorFma s)
/-- VUN. -/
def execVun (k : ClusterId) (e : VSel) (s : State) : Host.Outcome State Fault Refusal :=
  .next (runVector k e 5 vectorOne s)
/-- VCMP. -/
def execVcmp (k : ClusterId) (e : VSel) (s : State) : Host.Outcome State Fault Refusal :=
  .next (runVector k e 6 (vectorTwo cmpFn) s)
/-- VSEL. -/
def execVsel (k : ClusterId) (e : VSel) (s : State) : Host.Outcome State Fault Refusal :=
  .next (runVector k e 7 vectorSelect s)
/-- VRED. -/
def execVred (k : ClusterId) (e : VSel) (s : State) : Host.Outcome State Fault Refusal :=
  .next (runVector k e 8 vectorReduce s)
/-- VCVT. -/
def execVcvt (k : ClusterId) (e : VSel) (s : State) : Host.Outcome State Fault Refusal :=
  .next (runVector k e 9 vectorConvert s)
/-- VLDL. -/
def execVldl (k : ClusterId) (e : VSel) (s : State) : Host.Outcome State Fault Refusal :=
  .next (runVector k e 10 lineLoad s)
/-- VSTL. -/
def execVstl (k : ClusterId) (e : VSel) (s : State) : Host.Outcome State Fault Refusal :=
  .next (runVector k e 11 lineStore s)

end Sys2Proof.Machine
end

