-- ==== Sys2Proof/Machine/Sequencer.lean ====
section
/-!
DEFINITION. The sequencer: issue of engine words, sequencer instructions, the end of a task's frame and task switches
(spec 04).
-/
namespace Sys2Proof.Machine
open Sys2Proof

/-! ### Fetch -/

/-- Words of a stream region (04 R84). -/
def streamWords (e : StreamEntry) : Nat := (e.lines - 1) * 4
/-- The address of word pc. -/
def wordAddr (k : Nat) (e : StreamEntry) (pc : Nat) : Nat := padAddr k e.baseLine + 64 + 16 * pc
/-- Word pc of a task's stream; none outside the stream. -/
def wordAt (s : State) (k : Nat) (e : StreamEntry) (pc : Nat) : Option IWord :=
  if pc < streamWords e then some (BitVec.ofNat 128 (leNat (readBytes s (wordAddr k e pc) 16))) else none

/-- Whether the sequencer of a cluster may issue: a frame runs outside its drain window and any recovery. -/
def mayIssue (s : State) (k : Nat) : Bool :=
  jobRunning s && s.tick.phase == .idle && s.tick.issueOn && !s.tick.recovery.active && clusterHeld s k &&
  (clusterAt s k).seq == .issuing

/-- The resident task changed. -/
def modCur (s : State) (k : Nat) (f : Task → Task) : State :=
  modCluster s k (fun c => c.modTask c.resident f)
/-- The PC of the resident task set. -/
def setPc (s : State) (k pc : Nat) : State := modCur s k (fun t => { t with pc := pc })

/-- The engine that a stream fault word names for a word: its ENGINE field for CLASS 00b and 10b (04 Table 4.16). -/
def faultEngine (w : IWord) : Nat := if wClass w = 0 || wClass w = 2 then wEngine w else 15

/-! ### Engine words (04 R91, R92, R96, R98) -/

/-- A legal instruction issued: it stalls behind BARRIER until the cluster is idle, and while its queue is full. -/
def issueWord (s : State) (k pc : Nat) (ext : Option IWord) (w : IWord) : State :=
  let c := clusterAt s k
  let e := wEngine w
  if wBarrier w && !c.idle then s
  else if 16 ≤ (c.engine e).queue.length then s
  else
    let t := c.cur
    let q : QInstr := { ext := ext, word := w, task := c.resident, pc := pc, idx := t.idx }
    let kd := (kindOf e).getD .seq
    let first := (c.engine e).queue.isEmpty
    let s := modCluster s k (fun c => c.modEngine e (fun r => { r with
      queue := r.queue ++ [q], image := imageAfter kd (wOpcode w) r.image w }))
    let s := if first then modCluster s k (fun c => joinHead c e) else s
    setPc s k (pc + 1)

/-- An instruction checked and issued. -/
def checkIssue (s : State) (k pc : Nat) (ext : Option IWord) (w : IWord) : State :=
  let code := issueCode k (clusterAt s k) ext w
  if code = 0 then issueWord s k pc ext w else streamFault s k code (faultEngine w) pc

/-- A word of the stream as its bank answers it: corrected words are counted; an uncorrectable one is a data error. -/
def fetchWord (s : State) (k pc : Nat) (use : State → State) : State :=
  let p := checkPad s k (wordAddr k (clusterAt s k).cur.entry pc) 16
  match p.2 with
  | none => use p.1
  | some key => dataErrorPad p.1 k noEngine key (key * 8 % padWindow / 64)

/-- A word that the sequencer executes itself under a command of its own. -/
def ownWord (w : IWord) : Bool := wClass w == 1 && wOpcode w ≤ 10

/-- ENGINE_WORD_ISSUE (04 R91, R92, R98): the word at the PC of the resident task, with its extension word. A PC
outside the stream is stream fault 05h. -/
def execEngineWordIssue (k : ClusterId) (s : State) : Host.Outcome State Fault Refusal :=
  let k := k.val
  if !mayIssue s k then .next s
  else
    let t := (clusterAt s k).cur
    match wordAt s k t.entry t.pc with
    | none => .next (streamFault s k 5 15 t.pc)
    | some w =>
      if ownWord w then .next s
      else if wClass w = 2 then
        match wordAt s k t.entry (t.pc + 1) with
        | none => .next (streamFault s k 5 15 (t.pc + 1))
        | some v => .next (fetchWord s k t.pc (fun s => fetchWord s k (t.pc + 1) (fun s => checkIssue s k (t.pc + 1) (some w) v)))
      else .next (fetchWord s k t.pc (fun s => checkIssue s k t.pc none w))

/-! ### Sequencer instructions (04 R95, R96) -/

/-- A sequencer word waits: its wait begins where the sequencer first comes to it; it takes effect once the wait is met and its
own condition holds (09 R246). -/
def seqWaits (s : State) (k : Nat) (w : IWord) (cond : State → Bool) (eff : State → State) : State :=
  let j := wWaitObj w
  if j = noObj then (if cond s then eff s else s)
  else
    let s := if (clusterAt s k).seqWait then s
      else modCluster s k (fun c => beginWait { c with seqWait := true } seqWaiter j (wWaitN w))
    if (clusterAt s k).seqMet && cond s then
      eff (modCluster s k (fun c => { c with seqWait := false, seqMet := false }))
    else s

/-- One sequencer command: the word at the PC is that instruction; it is checked; it stalls behind BARRIER, its wait
and its own condition; then it takes its effect. -/
def runSeq (s : State) (k op : Nat) (cond : State → Bool) (eff : State → Nat → IWord → State) : State :=
  if !mayIssue s k then s
  else
    let t := (clusterAt s k).cur
    match wordAt s k t.entry t.pc with
    | none => s
    | some w =>
      if wClass w = 1 && wOpcode w = op then
        fetchWord s k t.pc (fun s =>
          let code := issueCode k (clusterAt s k) none w
          if code ≠ 0 then streamFault s k code 15 t.pc
          else if wBarrier w && !(clusterAt s k).idle then s
          else seqWaits s k w cond (fun s => eff s t.pc w))
      else s

/-- No condition of its own. -/
def freely (_ : State) : Bool := true
/-- The register a sequencer word names. -/
def seqReg (w : IWord) : Nat := fld w 40 3
/-- IMM as a word. -/
def seqImm (w : IWord) : Word := BitVec.ofNat 32 (fld w 64 32)
/-- TARGET. -/
def seqTarget (w : IWord) : Nat := fld w 64 20

/-- An index register written; a write to I0 has no effect. -/
def putIdx (idx : List Word) (r : Nat) (v : Word) : List Word := if r = 0 then idx else idx.set (r - 1) v
/-- The resident task's register. -/
def curReg (s : State) (k r : Nat) : Word := idxReg (clusterAt s k).cur.idx r
/-- The resident task's register written, and the PC moved on. -/
def writeReg (s : State) (k r pc : Nat) (v : Word) : State :=
  modCur s k (fun t => { t with idx := putIdx t.idx r v, pc := pc })

/-- A branch taken: to a word of the stream, else stream fault 05h (04 R96). -/
def jump (s : State) (k pc target : Nat) : State :=
  if target < streamWords (clusterAt s k).cur.entry then setPc s k target else streamFault s k 5 15 pc

/-- NOP. -/
def execNop (k : ClusterId) (s : State) : Host.Outcome State Fault Refusal :=
  .next (runSeq s k.val 0 freely (fun s pc _ => setPc s k.val (pc + 1)))

/-- SETI: Ir = IMM. -/
def execSeti (k : ClusterId) (s : State) : Host.Outcome State Fault Refusal :=
  .next (runSeq s k.val 1 freely (fun s pc w => writeReg s k.val (seqReg w) (pc + 1) (seqImm w)))

/-- ADDI: Ir = Ir + IMM modulo 2^32. -/
def execAddi (k : ClusterId) (s : State) : Host.Outcome State Fault Refusal :=
  .next (runSeq s k.val 2 freely (fun s pc w =>
    writeReg s k.val (seqReg w) (pc + 1) (curReg s k.val (seqReg w) + seqImm w)))

/-- The conditions of BR (04 Table 4.6). -/
def branchHolds (cond : Nat) (v : Word) : Bool :=
  match cond with
  | 0 => true
  | 1 => v == 0
  | 2 => v != 0
  | 3 => v.toInt < 0
  | 4 => 0 ≤ v.toInt
  | 5 => 0 < v.toInt
  | _ => false

/-- BR. -/
def execBr (k : ClusterId) (s : State) : Host.Outcome State Fault Refusal :=
  .next (runSeq s k.val 3 freely (fun s pc w =>
    if branchHolds (fld w 44 3) (curReg s k.val (seqReg w)) then jump s k.val pc (seqTarget w) else setPc s k.val (pc + 1)))

/-- LOOP: Ir = Ir - 1; if Ir is not 0, continue at TARGET. I0 reads as 0 after its write too, so that LOOP on I0 is
never taken. -/
def execLoop (k : ClusterId) (s : State) : Host.Outcome State Fault Refusal :=
  .next (runSeq s k.val 4 freely (fun s pc w =>
    let s := writeReg s k.val (seqReg w) (pc + 1) (curReg s k.val (seqReg w) - 1)
    if curReg s k.val (seqReg w) != 0 then jump s k.val pc (seqTarget w) else s))

/-- TESTF: waits until every earlier instruction of the task is complete. -/
def execTestf (k : ClusterId) (s : State) : Host.Outcome State Fault Refusal :=
  .next (runSeq s k.val 5 (fun s => (clusterAt s k.val).idle) (fun s pc w =>
    if (clusterAt s k.val).cur.tflags.toNat &&& fld w 96 5 != 0 then jump s k.val pc (seqTarget w)
    else setPc s k.val (pc + 1)))

/-- CLRF: clears TFLAGS only (04 R97). -/
def execClrf (k : ClusterId) (s : State) : Host.Outcome State Fault Refusal :=
  .next (runSeq s k.val 6 freely (fun s pc w =>
    modCur s k.val (fun t => { t with tflags := t.tflags &&& ~~~(BitVec.ofNat 16 (fld w 96 5)), pc := pc + 1 })))

/-- The hint of a BOIL word (04 Table 4.10). -/
def boilOf (w : IWord) : Boil :=
  { ahead := fld w 64 8, span := fld w 72 8, level := fld w 80 4, mask := fld w 84 5, left := fld w 72 8 }

/-- BOIL: the hint is posted, and delivered at the commit (04 R107). -/
def execBoil (k : ClusterId) (s : State) : Host.Outcome State Fault Refusal :=
  .next (runSeq s k.val 7 freely (fun s pc w =>
    setPc (modCluster s k.val (fun c => { c with boilPost := some (boilOf w) })) k.val (pc + 1)))

/-! ### Tasks (04 R103, R108 to R114) -/

/-- Whether a task is ready: neither frame-done nor halted. -/
def Task.ready (t : Task) : Bool := !t.frameDone && !t.halted

/-- The first ready task after the resident one in rising number, wrapping round from 3 to 0, other than itself. -/
def nextReady (c : Cluster) : Option Nat :=
  ([1, 2, 3].map (fun d => (c.resident + d) % 4)).find? (fun t => c.hasTask t && (c.task t).ready)

/-- YIELD: a switch begins where another task is ready (04 R109). -/
def execYield (k : ClusterId) (s : State) : Host.Outcome State Fault Refusal :=
  .next (runSeq s k.val 8 freely (fun s pc _ =>
    let s := setPc s k.val (pc + 1)
    match nextReady (clusterAt s k.val) with
    | none => s
    | some t => modCluster s k.val (fun c => { c with seq := .switching, switchTo := some t, switchKind := 0 })))

/-- Whether every task of a cluster has reached FEND or HALT. -/
def allEnded (c : Cluster) : Bool := c.tasks.all (fun t => t.frameDone || t.halted)

/-- The end of the resident task's frame: its state line, its mash state line, the task's mark, the grist table behind
the cluster's last task, and the choice of the next task (04 R103, 06 R164, R170). -/
def endTaskFrame (s : State) (k nextPc : Nat) (halt : Bool) : State :=
  let c := clusterAt s k
  let t := c.cur
  let s := padWrite s k (padAddr k t.entry.baseLine) (stateLine nextPc halt t.tflags t.idx)
  let s := match t.back, t.mash with
    | some b, some m => padWrite s k (padAddr k b.region) (mashImage m)
    | _, _ => s
  let s := modCur s k (fun t => { t with pc := nextPc, frameDone := true, halted := halt })
  let c := clusterAt s k
  let s := if allEnded c then
      (match (c.task 0).back with
       | some b => padWrite s k (gristAddr k b) (gristTable c)
       | none => s)
    else s
  modCluster s k (fun c =>
    match nextReady c with
    | some n => { c with seq := .switching, switchTo := some n, switchKind := if halt then 2 else 1 }
    | none => { c with seq := if c.tasks.all (fun t => t.halted) then .allHalted else .allDone })

/-- What FEND and HALT wait for: every instruction complete, every bulk write acknowledged, no mash transfer. -/
def frameEndReady (k : Nat) (s : State) : Bool := (clusterAt s k).quiet && !mashMoving (clusterAt s k)

/-- FEND (04 R103). With TMODE 1 a TARGET outside the stream is stream fault 05h. -/
def execFend (k : ClusterId) (s : State) : Host.Outcome State Fault Refusal :=
  .next (runSeq s k.val 9 (frameEndReady k.val) (fun s pc w =>
    if bitFld w 84 then
      (if seqTarget w < streamWords (clusterAt s k.val).cur.entry then endTaskFrame s k.val (seqTarget w) false
       else streamFault s k.val 5 15 pc)
    else endTaskFrame s k.val (pc + 1) false))

/-- HALT (04 R103, R106). -/
def execHalt (k : ClusterId) (s : State) : Host.Outcome State Fault Refusal :=
  .next (runSeq s k.val 10 (frameEndReady k.val) (fun s pc _ => endTaskFrame s k.val pc true))

/-! ### The switch itself (04 Tables 4.11 to 4.13) -/

/-- The engine codes of the matrix engines. -/
def matrixEngines : List Nat := [0, 1, 2, 3, 4, 5]

/-- The slot directory of a cluster: OPEN for each open slot, and OCC where step 3 saves its pairs. -/
def slotDirectory (c : Cluster) : List Byte :=
  let occ := if c.switchKind = 0 then 1 else 0
  matrixEngines.flatMap (fun e => (List.range 8).map (fun i =>
    match tfind (c.engine e).slots i with
    | some x => BitVec.ofNat 8 (occ + 2 + 4 * x.group)
    | none => 0))

/-- The address of a saved slot. -/
def savedSlot (base e i : Nat) : Nat := base + 0x60000 + (8 * e + i) * 0x20000
/-- The address of a saved tile register of V-engine 6 or 7. -/
def savedTile (base e r : Nat) : Nat := base + 0x20000 + (e - 6) * 0x20000 + r * 0x4000

/-- Step 2: header, slot directory, sync image and mash image saved. -/
def saveHeader (s : State) (k : Nat) : State :=
  let c := clusterAt s k
  let t := c.cur
  let base := contextAddr k t
  let s := storePlain s base (stateLine t.pc false t.tflags t.idx)
  let s := storePlain s (base + 0x40) (slotDirectory c)
  let s := storePlain s (base + 0x80) ((List.range 48).flatMap (fun j => syncToImage (c.syncObj j)))
  match t.mash with
  | some m => storePlain s (base + 0x200) (mashImage m)
  | none => s

/-- Step 3: occupied slots and tile registers saved. -/
def saveTiles (s : State) (k : Nat) : State :=
  let c := clusterAt s k
  let base := contextAddr k c.cur
  let s := matrixEngines.foldl (fun a e => (c.engine e).slots.foldl (fun a x =>
    storePlain a (savedSlot base e x.1) (pairBytes x.2.pairs)) a) s
  [6, 7].foldl (fun a e => (List.range 8).foldl (fun a r =>
    storePlain a (savedTile base e r) ((tileReg s k e r).flatMap (fun w => leBytes 4 w.toNat))) a) s

/-- The slots that a directory and the saved pairs give an engine. -/
def loadSlots (s : State) (base e : Nat) : Tbl Slot :=
  (List.range 8).filterMap (fun i =>
    let d := readBytes s (base + 0x40 + 8 * e + i) 1
    if bitAt (leNat d) 0 then
      some (i, { group := bitsAt (leNat d) 2 3, pairs := linePairs (readBytes s (savedSlot base e i) 0x20000) })
    else none)

/-- The words that bytes hold. -/
def bytesWords (bs : List Byte) : List Word := (chunksOf 4 bs).map (fun b => BitVec.ofNat 32 (leNat b))

/-- Step 4 for a task that has run in the frame: everything that steps 2 and 3 saved. -/
def restoreAll (s : State) (k n : Nat) : State :=
  let t := (clusterAt s k).task n
  let base := contextAddr k t
  let h := readBytes s base 64
  let s' := modCluster s k (fun c => c.modTask n (fun t => { t with
    pc := bitsAt (fieldAt h 0 4) 0 20
    tflags := BitVec.ofNat 16 (fieldAt h 4 2)
    idx := (List.range 7).map (fun r => BitVec.ofNat 32 (fieldAt h (8 + 4 * r) 4))
    mash := t.mash.map (fun _ => mashOfImage (readBytes s (base + 0x200) 64)) }))
  let s' := modCluster s' k (fun c => matrixEngines.foldl (fun c e => c.modEngine e (fun r =>
    let sl := loadSlots s base e
    { r with slots := sl, image := sl.map (fun x => (x.1, x.2.group)) })) c)
  modCluster s' k (fun c => [6, 7].foldl (fun c e => c.modEngine e (fun r => { r with
    tiles := (List.range 8).map (fun i => (i, bytesWords (readBytes s (savedTile base e i) 0x4000))) })) c)

/-- Step 4 for a task that has not yet run in the frame: no slot, no group, no tile. -/
def restoreFresh (s : State) (k : Nat) : State :=
  modCluster s k (fun c => (matrixEngines ++ [6, 7]).foldl (fun c e => c.modEngine e (fun r =>
    { r with slots := [], image := [], tiles := [] })) c)

/-- The sync image of a task as live objects. A signal that reached it before the task first ran stands in it. -/
def loadSync (s : State) (k n : Nat) : State :=
  let t := (clusterAt s k).task n
  let objs := (List.range 48).map (fun j => (j, syncOfImage (readBytes s (imageAddr k t j) 8)))
  modCluster s k (fun c => { c with sync := objs })

/-- Steps 2 to 5, and the signals of the inbox in their order of arrival. -/
def switchTask (s : State) (k n : Nat) : State :=
  let c := clusterAt s k
  let s := if c.switchKind = 2 then s else saveHeader s k
  let s := if c.switchKind = 0 then saveTiles s k else s
  let s := if (c.task n).ran then restoreAll s k n else restoreFresh s k
  let s := loadSync s k n
  let inbox := c.inbox
  let s := modCluster s k (fun c => { c.modTask n (fun t => { t with ran := true }) with
    resident := n, seq := .issuing, switchTo := none, inbox := [], switches := c.switches + 1 })
  inbox.foldl applySignal s

/-- Whether a switch in progress has ended its step 1. -/
def stepOneDone (c : Cluster) : Bool := switchReady c

/-- Whether a task switch of a cluster is in progress in a running frame. -/
def switching (s : State) (k : Nat) : Bool :=
  jobRunning s && !s.tick.recovery.active && clusterHeld s k && (clusterAt s k).seq == .switching

/-- TASK_SWITCH (04 R110). -/
def execTaskSwitch (k : ClusterId) (s : State) : Host.Outcome State Fault Refusal :=
  let c := clusterAt s k.val
  match c.switchTo with
  | none => .next s
  | some n => .next (if switching s k.val && stepOneDone c then switchTask s k.val n else s)

/-- TASK_SWITCH_TIMEOUT (04 R111): 65,536 cycles after the YIELD, step 1 has not ended. -/
def execTaskSwitchTimeout (k : ClusterId) (s : State) : Host.Outcome State Fault Refusal :=
  let c := clusterAt s k.val
  .next (if switching s k.val && c.switchKind == 0 && !stepOneDone c then streamFault s k.val 8 15 (c.cur.pc - 1) else s)

end Sys2Proof.Machine
end

