-- ==== Sys2Proof/Machine/Tick.lean ====
section
/-!
DEFINITION. The tick: sources and edges, census, group check, vote, outcomes, commit, begin, replay (spec 02 R33 to
R60, R449; 04 R104 to R106, R113; 15 R400, R401, R406, R410; 11 R320, R321).
-/
namespace Sys2Proof.Machine
open Sys2Proof

/-! ### Clusters at the begin of a frame (04 R105, R113; 06 R164, R170, R172) -/

/-- A task as its committed state lines give it. -/
def loadTask (s : State) (k : Nat) (t : Task) : Task :=
  let l := readBytes s (padAddr k t.entry.baseLine) 64
  { t with
    pc := bitsAt (fieldAt l 0 4) 0 20
    tflags := BitVec.ofNat 16 (fieldAt l 4 2)
    idx := (List.range 7).map (fun r => BitVec.ofNat 32 (fieldAt l (8 + 4 * r) 4))
    halted := bitAt (fieldAt l 0 4) 24
    frameDone := false
    ran := false
    mash := t.back.map (fun b => mashOfImage (readBytes s (padAddr k b.region) 64)) }

/-- The lowest task that has not halted. -/
def firstTask (c : Cluster) : Option Nat := (List.range 4).find? (fun n => c.hasTask n && !(c.task n).halted)

/-- A cluster at step 6: its tasks from their state lines, the grist table with its windows closed, every object at
zero, every slot free; it issues from its lowest task that has not halted. -/
def beginCluster (s : State) (k : Nat) (c : Cluster) : Cluster :=
  let c := flushCluster { c with tasks := c.tasks.map (loadTask s k) }
  let c := gristWindows (gristLoad s k c)
  match firstTask c with
  | none => { c with seq := .allHalted }
  | some n => { c.modTask n (fun t => { t with ran := true }) with resident := n, seq := .issuing }

/-- The sync images of every task cleared (04 R113); a cluster with one task has no context area. -/
def clearImages (s : State) (k : Nat) (c : Cluster) : State :=
  if c.tasks.length < 2 then s
  else c.tasks.foldl (fun a t => storePlain a (contextAddr k t + 0x80) (List.replicate 384 0)) s

/-- Step 6 of Table 2.3 for a job: a new frame sequence number, scratch unspecified, clusters at their begin, packets
of this frame accepted, the frame's ceiling. -/
def beginFrame (s : State) (drain : Nat) : State :=
  let s := dropScratch s
  let s := s.clusters.foldl (fun a c => clearImages a c.1 c.2) s
  let s := mapClusters s (beginCluster s)
  let s := { s with
    svc := { s.svc with cutoff := false }
    tick := { s.tick with seq := s.tick.seq + 1, phase := .idle, votes := [], issueOn := true, undrained := []
                          drainNs := BitVec.ofNat 32 drain } }
  acceptHeld (beginCeiling s)

/-! ### Census and group check (02 R42, R43; 04 R104) -/

/-- A cluster that reports quiescence. -/
def clusterQuiet (c : Cluster) : Bool :=
  allEnded c && c.quiet && c.wtQueue.isEmpty && c.inbox.isEmpty && !(c.tasks.any (fun t => (t.mash.map Mash.moving).getD false)) &&
  c.engines.all (fun e => e.2.slice.isNone)

/-- The rim die at which a circuit ends here, as a unit. -/
def rimOfCircuit (s : State) (c : Nat) : Nat := (circuitRim s c).getD 72

/-- The rim dies whose fabric buffers are not empty of packets of this frame: packets that wait to leave, codewords that carry
such packets and are not acknowledged, packets received and not yet taken in or not yet wholly written, relay signals that wait
for their lines, and writes of service cores that are not acknowledged (02 R42; 11 R325; 12 R327). -/
def busyRims (s : State) : List Nat :=
  (s.fab.egress.filter (fun x => x.sp.cls < 3)).map (fun x => match x.port with
    | some p => 72 + portRim p
    | none => rimOfCircuit s x.sp.circ) ++
  (s.fab.ordWait.filter (fun x => x.1.cls < 3)).map (fun x => rimOfCircuit s x.1.circ) ++
  s.fab.inbound.map (fun x => 72 + portRim x.port) ++
  s.noc.bulk.filterMap (fun p => (serviceRim p.k).map (fun n => 72 + n)) ++
  (s.fab.relay.filter (fun r => !r.waiting.isEmpty)).map (fun r => rimOfCircuit s r.circ) ++
  (s.fab.ports.filter (fun p => (p.2.state == .up || p.2.state == .closed) &&
    (p.2.buffer.any (fun c => c.job) ||
      p.2.arrived.any (fun k => hType k.header < 5 && hTag k.header == frameTag s)))).map (fun p => 72 + portRim p.1)

/-- The units in which packets of the on-chip networks stand or nodes hold lines, and the rim dies that are not drained. -/
def busyUnits (s : State) : List Nat :=
  s.noc.bulk.map (fun p => p.way.at_) ++ s.noc.sync.map (fun p => p.way.at_) ++
  s.noc.nodes.map (fun n => match treeByCode s n.tree with
    | some t => nodeUnit s n.fabric (t.nodes.getD n.node noNode)
    | none => 72) ++
  busyRims s

/-- The sites and rim dies that have not drained, in rising number. -/
def undrainedUnits (s : State) : List Nat :=
  let cs := s.clusters.filter (fun c => clusterHeld s c.1 && !clusterQuiet c.2)
  (cs.map (fun c => clusterHome s c.1) ++ busyUnits s).foldl (fun a u => setInsert u a) []

/-- The open groups of a cluster: engine, slot, group, task; those of the resident task, then those saved in the
contexts of other tasks. -/
def openGroups (s : State) (k : Nat) (c : Cluster) : List (Nat × Nat × Nat × Nat) :=
  matrixEngines.flatMap (fun e => (List.range 8).flatMap (fun i =>
    (match tfind (c.engine e).slots i with
     | some x => [(e, i, x.group, c.resident)]
     | none => []) ++
    (c.tasks.filter (fun t => t.entry.task != c.resident && t.ran && !t.halted)).filterMap (fun t =>
      let d := fieldAt (readBytes s (contextAddr k t + 0x40 + 8 * e + i) 1) 0 1
      if bitAt d 1 then some (e, i, bitsAt d 2 3, t.entry.task) else none)))

/-- Every open group of the module, by rising logical cluster, engine and slot. -/
def allOpenGroups (s : State) : List (Nat × (Nat × Nat × Nat × Nat)) :=
  s.clusters.flatMap (fun c => (openGroups s c.1 c.2).map (fun g => (c.1, g)))

/-- Fault 0Dh: a record for each open group, up to 16; the job ends in both frame modes. -/
def groupFault (s : State) (gs : List (Nat × (Nat × Nat × Nat × Nat))) : State :=
  let s := (gs.take 16).foldl (fun a g =>
    report a (clusterUnit a g.1) 0x0D actEnd g.2.1 (g.1 % 8) (g.2.2.1 + 16 * g.2.2.2.1 + 256 * g.2.2.2.2)) s
  endJob s 3 0x0D

/-! ### Outcomes (02 R45 to R49) -/

/-- What R410 does at a tick: the frame does not commit, and the job ends with fault 14h. -/
def withheldTick (s : State) (h : Half) : State :=
  let e := if h = .north then s.crown.epochNorth else s.crown.epochSouth
  let s := { s with
    crown := { s.crown with stops := s.crown.stops + 1 }
    tick := { s.tick with phase := .idle, votes := [] } }
  if jobHeld s && s.job.state != .ending then
    endJobSpoilt (report s .module 0x14 actEnd noEngine 0 e.toNat) 3 0x14
  else s

/-- Arming that takes effect at the tick (09 R261). -/
def armClusters (s : State) : State :=
  mapClusters s (fun _ c => match c.diag.pending with
    | none => c
    | some v => { c with diag := { diagEmpty with control := v, state := if v.getLsbD 0 then 1 else 0 } })

/-- Pending rwt writes and staged records, at step 5; then the clock switch of Table 13.3. -/
def commitSettings (s : State) : State := switchClock (clearLate (tickRecords (armClusters s)))

/-- Whether every task of the job has halted (04 R106). -/
def allHalted (s : State) : Bool := s.clusters.all (fun c => !clusterHeld s c.1 || c.2.tasks.all (fun t => t.halted))

/-- Steps 4 to 6 of a committing tick. -/
def commitFrame (s : State) (drain : Nat) : State :=
  let s := dropCaches s
  let running := jobRunning s
  let ph := framePhase s
  let s := { s with
    mem := commitMarks s.mem
    tick := { s.tick with
      committed := s.tick.committed + 1, holds := 0, phase := .idle, votes := [], undrained := []
      drainNs := BitVec.ofNat 32 drain, recovery := { s.tick.recovery with repeatAt := [] } } }
  let s := if running then deliverHints (serviceCommit s ph) else s
  let s := commitSettings s
  if running && allHalted s then endJob s 1 0
  else if running && s.job.endAtCommit then endJob s 2 0
  else if s.tick.lossDue then s
  else if running then beginFrame s drain
  else { s with tick := { s.tick with seq := s.tick.seq + 1 } }

/-- A held tick (02 R46, R47). -/
def holdFrame (s : State) (drain : Nat) : State :=
  let n := s.tick.holds + 1
  let beyond := s.tick.cfg.holdLim.toNat < n
  { dropCaches (clearLate s) with
    svc := { s.svc with cutoff := false }
    tick := { s.tick with
      held := s.tick.held + 1, holds := n, overrun := beyond, phase := .idle, votes := []
      issueOn := !beyond && !s.tick.lossDue, drainNs := BitVec.ofNat 32 drain } }

/-- The members of the tick domain other than this module (02 R41). -/
def otherMembers (s : State) : List Nat :=
  match s.job.plan with
  | some p => if s.tick.cfg.voteWait = 0#8 then [] else p.members.filter (fun m => m != myModule s)
  | none => []

/-- A vote sent to every other member, by the management routes (11 R303, R324). -/
def sendVotes (s : State) (v : Vote) : State :=
  (otherMembers s).foldl (fun a m => sendMgmt a (votePacket a m a.tick.seq v)) s

/-- Microseconds from a fault to the first issue of its replay, rounded up; a free value where a time is not known. -/
def interruption (s : State) (edge : Option Time) (drain : Nat) : Nat × State :=
  match s.job.faultAt, edge with
  | some f, some e => (ceilDiv ((e - f) + 4 * drain) 4000, s)
  | _, _ => drawNat s

/-- The replay (15 R400, R401): a new frame with a new number. -/
def replayFrame (s : State) (edge : Option Time) (drain : Nat) : State :=
  let d := interruption s edge drain
  let s := d.2
  let s := { s with
    job := { s.job with recoveries := s.job.recoveries + 1, faultAt := none
                        longest := if s.job.longest.toNat < d.1 then BitVec.ofNat 32 d.1 else s.job.longest }
    tick := { s.tick with holds := 0, recovery := { s.tick.recovery with active := false, takeovers := [] } } }
  beginFrame s drain

/-- Whether step 5 of a recovery is done at an edge: every slate is reloaded, and steps 1 to 5 are over. Table 15.3
gives them 31 µs at most and no shortest time: at an edge within 31 µs, or at the first one after a fault whose time is
not known, whether they are over is free. -/
def recoveryReady (s : State) (edge : Option Time) : Bool × State :=
  if !s.tick.recovery.takeovers.isEmpty then (false, s)
  else
    let sure := match s.tick.recovery.since, edge with
      | some f, some e => f + 31 * 4000 ≤ e
      | _, _ => false
    if sure || 0 < s.tick.recovery.edges then (true, s)
    else
      let d := drawNat s
      (d.1 % 2 == 0, d.2)

/-- A lost edge (02 R48). -/
def loseEdge (s : State) : State :=
  { s with tick := { s.tick with
    lost := s.tick.lost + 1, phase := .idle, votes := []
    recovery := { s.tick.recovery with edges := s.tick.recovery.edges + 1 } } }

/-- The outcome, once the vote is over: `missing` where a member's vote has not come. No frame, so no replay, begins once
the source is lost (02 R36). -/
def decideTick (s : State) (own : Vote) (missing : Bool) (edge : Option Time) (drain : Nat) : State :=
  let vs := s.tick.votes
  match s.crown.withheld with
  | h :: _ => withheldTick s h
  | [] =>
    if s.tick.recovery.active then
      (if own = .commit && !missing && vs.all (fun v => v.2 == .commit) && !s.tick.lossDue then replayFrame s edge drain
       else loseEdge s)
    else match vs.find? (fun v => v.2 == .abandon) with
      | some v =>
        let s := { s with tick := { s.tick with phase := .idle } }
        raise s .module 0x15 noEngine 0 v.1.toNat edge
      | none =>
        if own = .commit && !missing && vs.all (fun v => v.2 == .commit) then commitFrame s drain else holdFrame s drain

/-- The outcome applied; a droop seen in this tick's relock is of no later one (13 R348). -/
def settleTick (s : State) (own : Vote) (missing : Bool) (edge : Option Time) (drain : Nat) : State :=
  let r := decideTick s own missing edge drain
  { r with power := { r.power with droopSeen := false } }

/-- The period in units of 0.25 ns. -/
def periodUnits (s : State) : Nat := s.tick.cfg.period.toNat * 4000
/-- The time of the edge whose tick runs, where the next is expected a period later. -/
def lastEdge (s : State) : Option Time := s.tick.expected.map (fun e => e - periodUnits s)

/-- Whether every member has voted. -/
def allVoted (s : State) : Bool := (otherMembers s).all (fun m => s.tick.votes.any (fun v => v.1.toNat == m))

/-- The module's own outcome: sent to the domain, or applied at once where no vote runs. -/
def castVote (s : State) (own : Vote) (edge : Option Time) (drain : Nat) : State :=
  if (otherMembers s).isEmpty then settleTick s own false edge drain
  else
    let s := sendVotes { s with tick := { s.tick with phase := .voting own } } own
    if allVoted s then settleTick s own false edge drain else s

/-- The end of the census: `late` is the list of units that have not drained. -/
def endCensus (s : State) (late : List Nat) (edge : Option Time) (drain : Nat) : State :=
  let s := { s with tick := { s.tick with undrained := late.map unitId } }
  if !late.isEmpty then castVote s .hold edge drain
  else
    let gs := allOpenGroups s
    if gs.isEmpty then castVote s .commit edge drain else groupFault s gs

/-! ### Events that come due -/

/-- The end of the job at a frame overrun (02 R47, 15 R406); in ride-through mode the frame is abandoned. Where only another member had not drained, one record of
the module stands, with a free census time. -/
def overrunEnds (s : State) : State :=
  let s := { s with tick := { s.tick with
    overrun := false
    abandoned := if rideThrough s && jobRunning s then s.tick.abandoned + 1 else s.tick.abandoned } }
  let us := s.tick.undrained.take 16
  let s := if us.isEmpty then
      let d := drawNat s
      report d.2 .module 0x0C actEnd noEngine 0 d.1
    else us.foldl (fun a u => report a u 0x0C actEnd noEngine 0 200) s
  endJobSpoilt s 3 0x0C

/-- The end of the job at a lost tick source (02 R36): after the commit, or with the frame uncommitted. -/
def sourceLostEnds (s : State) : State :=
  let spoilt := 0 < s.tick.holds || s.tick.recovery.active
  let s := { s with tick := { s.tick with lossDue := false } }
  if jobHeld s && s.job.state != .ending then
    let s := report s .module 0x10 actEnd noEngine 0 0
    if spoilt then endJobSpoilt s 3 0x10 else endJob s 3 0x10
  else report s .module 0x10 actNone noEngine 0 0

/-- What is due before another edge is taken. -/
def settleDue (s : State) : State :=
  let s := if s.tick.overrun then overrunEnds s else s
  if s.tick.lossDue && s.tick.phase == .idle then sourceLostEnds s else s

/-! ### Edges (02 R34, R36; 11 R320, R321) -/

/-- Beacons on the relay ports in fabric mode that carry codewords (11 R320). `base` is the time from the sender's edge to the
start of the tick; the codeword starts within 25.6 ns, at a time that is a free value in that bound. -/
def sendBeacons (s : State) (base : Nat) : State :=
  let hops := if s.tick.cfg.source = 2#8 then s.tick.hopsIn + 1 else 0
  (List.range 32).foldl (fun a p =>
    if a.tick.cfg.relay.getLsbD p && !a.fab.ethPorts.getLsbD p && ((portAt a p).state == .up || (portAt a p).state == .closed) then
      let d := drawNat a
      sendBeacon d.2 p (a.tick.seq + 1) (base + d.1 % 103) hops
    else a) s

/-- Steps 4 and 5 of an edge at which a held job runs no frame: the caches are dropped, and what waited for the next
tick takes effect. No frame commits, so that no counter of frames moves (log entry 70). -/
def heldEdge (s : State) : State :=
  let s := commitSettings (dropCaches s)
  { s with power := { s.power with droopSeen := false } }

/-- A tick edge (02 R42): counted; a census in a running frame, an empty commit without a job, the first frame of a job
whose copies are done, a vote in a recovery. An edge at which a held job has no frame runs steps 4 and 5 alone. -/
def tickEdge (s : State) (edge : Option Time) (base drain : Nat) : State :=
  let s := sendBeacons s base
  let s := { s with tick := { s.tick with count := s.tick.count + 1, undrained := [] } }
  if s.tick.phase != .idle && !(s.tick.phase == .census && s.tick.recovery.active) then s
  else match s.job.state with
    | .running =>
      if s.tick.recovery.active then
        let r := recoveryReady s edge
        castVote r.2 (if r.1 then .commit else .abandon) edge drain
      else
        let s := { s with tick := { s.tick with issueOn := false, phase := .census } }
        if (undrainedUnits s).isEmpty then endCensus s [] edge drain else s
    | .starting =>
      (match s.crown.withheld with
       | h :: _ => withheldTick s h
       | [] =>
         let s := heldEdge s
         if s.job.copiesDone && !s.tick.lossDue then
           let s := beginFrame { s with job := { s.job with state := .running } } drain
           if s.job.revokeOwner then revokeJob s else s
         else s)
    | .ending =>
      (match s.crown.withheld with
       | h :: _ => withheldTick s h
       | [] => heldEdge s)
    | .none => settleTick s .commit false edge drain

/-- An edge taken on an external source: the next is expected one period later; eight in a row lock the source. -/
def acceptEdge (s : State) (t : Time) (drain : Nat) : State :=
  let n := s.tick.inWindow + 1
  let s := settleDue s
  let st : Byte := if 8 ≤ n then 1 else if s.tick.srcState = 3#8 then 2 else s.tick.srcState
  let s := { s with
    svc := { s.svc with now := max s.svc.now t }
    tick := { s.tick with expected := some (t + periodUnits s), inWindow := n, flywheels := 0, srcState := st } }
  tickEdge s (some t) 0 drain

/-- Whether an edge is taken: while acquiring, whenever it comes; else within 1 µs of its time. -/
def edgeInWindow (s : State) (t : Time) : Bool :=
  match s.tick.expected with
  | none => true
  | some e => t ≤ e + 4000 && e ≤ t + 4000

/-- An edge of an external source judged (02 R36). -/
def judgeEdge (s : State) (t : Time) (drain : Nat) : State :=
  if edgeInWindow s t then acceptEdge s t drain
  else { s with tick := { s.tick with edgeFault := s.tick.edgeFault + 1 } }

/-- TICK_EDGE: an edge of the internal timer (02 R42). The next is expected one period later. -/
def execTickEdge (t : Time) (drain : Nat) (s : State) : Host.Outcome State Fault Refusal :=
  if s.tick.on && s.tick.cfg.source = 0#8 then
    let s := settleDue s
    .next (tickEdge { s with
      svc := { s.svc with now := max s.svc.now t }
      tick := { s.tick with expected := some (t + periodUnits s) } } (some t) 0 drain)
  else .next s

/-- TICK_IN_PULSE (02 R36). -/
def execTickInPulse (t : Time) (drain : Nat) (s : State) : Host.Outcome State Fault Refusal :=
  .next (if s.tick.on && s.tick.cfg.source = 1#8 then judgeEdge s t drain else s)

/-- FLYWHEEL_EDGE (02 R36): the window has closed with no edge. The phase stays at the expected time; the fourth in a
row loses the source. -/
def execFlywheelEdge (drain : Nat) (s : State) : Host.Outcome State Fault Refusal :=
  if s.tick.on && s.tick.cfg.source != 0#8 then
    match s.tick.expected with
    | none => .next s
    | some e =>
      let s := settleDue s
      let n := s.tick.flywheels + 1
      let lost := n = 4
      let s := { s with tick := { s.tick with
        edgeFault := s.tick.edgeFault + 1
        inWindow := 0
        flywheels := if lost then 0 else n
        expected := if lost then none else some (e + periodUnits s)
        srcState := if lost then 3 else s.tick.srcState
        lossDue := lost } }
      .next (tickEdge s (some (e + 4000)) 4000 drain)
  else .next s

/-- TICK_SOURCE_LOST (02 R36): once the tick of the fourth flywheel edge is over. -/
def execTickSourceLost (s : State) : Host.Outcome State Fault Refusal :=
  .next (if s.tick.lossDue && s.tick.phase == .idle then sourceLostEnds s else s)

/-- BEACON_RECEIVED (11 R321, 02 R40). The arrival of the codeword's start, less the link delay and OFFSET. -/
def execBeaconReceived (port : PortId) (t : Time) (seq : DWord) (offset : BitVec 16) (hops : BitVec 4) (good : Bool)
    (drain : Nat) (s : State) : Host.Outcome State Fault Refusal :=
  let r := portAt s port.val
  if !(s.tick.on && s.tick.cfg.source = 2#8 && s.tick.cfg.beaconIn.toNat = port.val && (r.state == .up || r.state == .closed)) then
    .next s
  else if !good || 8 < hops.toNat then .next { s with tick := { s.tick with edgeFault := s.tick.edgeFault + 1 } }
  else
    let e := t - r.delay.toNat - offset.toNat
    if edgeInWindow s e then
      let s := modPort s port.val (fun r => { r with beacons := r.beacons + 1 })
      let s := { s with tick := { s.tick with hopsIn := hops.toNat } }
      let s := if seq != s.tick.seq + 1 then raise s .module 0x11 noEngine 0 0 none else s
      .next (acceptEdge s e drain)
    else .next { s with tick := { s.tick with edgeFault := s.tick.edgeFault + 1 } }

/-- CENSUS_TIMEOUT (02 R42): 2 µs after the edge, or at the moment at which the last unit has reported. A frame that a
fault has abandoned since the edge has the vote abandon (02 Table 2.4, 15 R401). -/
def execCensusTimeout (drain : Nat) (s : State) : Host.Outcome State Fault Refusal :=
  .next (if s.tick.phase == .census && jobRunning s then
      if s.tick.recovery.active then sendVotes { s with tick := { s.tick with phase := .idle } } .abandon
      else endCensus s (undrainedUnits s) none drain
    else s)

/-- Whether a member's vote may still count: for the frame of this tick, and not after the wait. -/
def voteCounts (s : State) (smod : BitVec 12) (seq : DWord) : Bool :=
  jobRunning s && seq == s.tick.seq && (otherMembers s).contains smod.toNat &&
  !s.tick.votes.any (fun v => v.1 == smod) &&
  (s.tick.phase != .idle || (s.tick.holds == 0 && !s.tick.recovery.active))

/-- The outcome that a vote packet holds; the code 11b is reserved (11 R303). -/
def voteOf (k : FabPacket) : Option Vote :=
  match bitsAt (fieldAt k.payload 8 1) 0 2 with
  | 0 => some .commit
  | 1 => some .hold
  | 2 => some .abandon
  | _ => none

/-- A member's vote (02 R45): the last one decides; a late one is discarded. -/
def takeVote (s : State) (smod : BitVec 12) (seq : DWord) (v : Vote) (drain : Nat) : State :=
  if !voteCounts s smod seq then s
  else
    let s := { s with tick := { s.tick with votes := s.tick.votes ++ [(smod, v)] } }
    match s.tick.phase with
    | .voting own => if allVoted s then settleTick s own false (lastEdge s) drain else s
    | _ => s

/-- DOMAIN_VOTE_RECEIVED (02 R45; 11 R303, R324): a packet of TYPE 0111b on a port; one for another module is sent on. -/
def execDomainVoteReceived (port : PortId) (t : Time) (k : FabPacket) (drain : Nat) (s : State) :
    Host.Outcome State Fault Refusal :=
  let s := { s with svc := { s.svc with now := max s.svc.now t } }
  if hType k.header != 7 then .next s
  else match arrive s port.val k with
    | none => .next s
    | some s =>
      if hDmod k.header != myModule s then .next (forwardMgmt s port.val k)
      else match voteOf k with
        | some v => .next (takeVote s (BitVec.ofNat 12 (hSmod k.header)) (BitVec.ofNat 64 (fieldAt k.payload 0 8)) v drain)
        | none => .next s

/-- VOTE_WAIT_EXPIRY (02 R45, Table 2.4): a vote is missing, so that the tick is held. -/
def execVoteWaitExpiry (drain : Nat) (s : State) : Host.Outcome State Fault Refusal :=
  match s.tick.phase with
  | .voting own => .next (if jobRunning s then settleTick s own (!allVoted s) (lastEdge s) drain else s)
  | _ => .next s

/-- FRAME_OVERRUN (02 R47, 15 R406). -/
def execFrameOverrun (s : State) : Host.Outcome State Fault Refusal :=
  .next (if s.tick.overrun then overrunEnds s else s)

/-- WRITE_OUT_COMPLETE (02 R56, 01 R448): every line whose committed bank is dark is in the pale bank. -/
def execWriteOutComplete (s : State) : Host.Outcome State Fault Refusal :=
  .next (if s.job.state == .ending then finishJob (writeOut s) else s)

end Sys2Proof.Machine
end

