-- ==== Sys2Proof/Machine/Update.lean ====
section
/-!
DEFINITION. The U-unit commands (spec 06 R179 to R187): update rules and working copies.
-/
namespace Sys2Proof.Machine
open Sys2Proof

/-- The engine code of the U-unit. -/
def codeU : Nat := 8

/-- The parameter block (06 Table 6.13). -/
structure Params where
  lr  : Word
  b1  : Word
  b2  : Word
  eps : Word
  wd  : Word
  gs  : Word
  c1  : Word
  c2  : Word
deriving DecidableEq, Repr

/-- The parameter block read from a line. -/
def readParams (b : List Byte) : Params :=
  let w (i : Nat) : Word := BitVec.ofNat 32 (fieldAt b (4 * i) 4)
  { lr := w 0, b1 := w 1, b2 := w 2, eps := w 3, wd := w 4, gs := w 5, c1 := w 6, c2 := w 7 }

/-- An FP32 result with the flags gathered so far. -/
abbrev Fl := Word × Flags

/-- An operation on two results, gathering flags. -/
def lift2 (f : Word → Word → Word × Flags) (a b : Fl) : Fl :=
  let r := f a.1 b.1
  (r.1, a.2 ||| b.2 ||| r.2)
/-- The square root of a result. -/
def liftRoot (a : Fl) : Fl :=
  let r := sqrt32 a.1
  (r.1, a.2 ||| r.2)
/-- A word with no flag. -/
def pure32 (w : Word) : Fl := (w, flagNone)

/-- One element after an update: w, m and v (06 R183). -/
structure Updated where
  w : Word
  m : Word
  v : Word
  f : Flags
deriving DecidableEq, Repr

/-- Momentum. -/
def ruleMomentum (p : Params) (g w m : Word) : Updated :=
  let g2 := lift2 add32 (pure32 g) (lift2 mul32 (pure32 p.wd) (pure32 w))
  let m' := lift2 add32 (lift2 mul32 (pure32 p.b1) (pure32 m)) g2
  let w' := lift2 sub32 (pure32 w) (lift2 mul32 (pure32 p.lr) m')
  { w := w'.1, m := m'.1, v := 0, f := w'.2 }

/-- Adaptive moment. -/
def ruleAdaptive (p : Params) (g w m v : Word) : Updated :=
  let one := pure32 one32
  let m' := lift2 add32 (lift2 mul32 (pure32 p.b1) (pure32 m))
    (lift2 mul32 (lift2 sub32 one (pure32 p.b1)) (pure32 g))
  let v' := lift2 add32 (lift2 mul32 (pure32 p.b2) (pure32 v))
    (lift2 mul32 (lift2 mul32 (lift2 sub32 one (pure32 p.b2)) (pure32 g)) (pure32 g))
  let u := lift2 div32 (lift2 mul32 (pure32 p.c1) m')
    (lift2 add32 (liftRoot (lift2 mul32 (pure32 p.c2) v')) (pure32 p.eps))
  let w' := lift2 sub32 (pure32 w)
    (lift2 mul32 (pure32 p.lr) (lift2 add32 u (lift2 mul32 (pure32 p.wd) (pure32 w))))
  { w := w'.1, m := m'.1, v := v'.1, f := w'.2 ||| m'.2 ||| v'.2 }

/-- Sign. -/
def ruleSign (p : Params) (g w m : Word) : Updated :=
  let one := pure32 one32
  let c := lift2 add32 (lift2 mul32 (pure32 p.b1) (pure32 m))
    (lift2 mul32 (lift2 sub32 one (pure32 p.b1)) (pure32 g))
  let sg : Word := if Val.zero.lt (val32 c.1) then one32 else if (val32 c.1).lt Val.zero then none32 else 0
  let w' := lift2 sub32 (pure32 w)
    (lift2 mul32 (pure32 p.lr) (lift2 add32 (pure32 sg) (lift2 mul32 (pure32 p.wd) (pure32 w))))
  let m' := lift2 add32 (lift2 mul32 (pure32 p.b2) (pure32 m))
    (lift2 mul32 (lift2 sub32 one (pure32 p.b2)) (pure32 g))
  { w := w'.1, m := m'.1, v := 0, f := w'.2 ||| m'.2 ||| c.2 }

/-- The update of one element under a rule code: 0 momentum, 1 adaptive moment, 2 sign. -/
def updateElem (rule : Nat) (p : Params) (g w m v : Word) : Updated :=
  if rule = 0 then ruleMomentum p g w m
  else if rule = 1 then ruleAdaptive p g w m v
  else ruleSign p g w m

/-- A 128 x 128 tile of FP32 or BF16 elements, each widened to FP32, rows in order. -/
def wordRows (s : State) (fmt : BitVec 4) (a : Nat) : List (List Word) :=
  (List.range 128).map (fun i => (tileRow fmt (engineFetch s) a 0 4 i).map widen)

/-- The working copies of a tile of words: COPY and TCOPY (06 R185). -/
def copyWrites (k : Nat) (q : QInstr) (rows : List (List Word)) : List Write × Flags :=
  let w := q.word
  let fmt := fmtFld w 118
  let vals := rows.map (fun r => r.map wordVal)
  let a := if bitFld w 122 then packTile fmt vals (padAddr k (extLine q 8)) (padAddr k (extLine q 56)) 3 3
    else ([], flagNone)
  let b := if bitFld w 123 then
      packTile fmt (turned (Val.zero, Val.zero) 128 vals) (padAddr k (extLine q 32)) (padAddr k (extLine q 80)) 3 3
    else ([], flagNone)
  (a.1 ++ b.1, a.2 ||| b.2)

/-- The gradient of UAPPLY: a BF16 tile at GR, or the slice buffer of SRC (06 R179, R181). -/
def gradientRows (s : State) (k : Nat) (q : QInstr) : List (List Word) :=
  if bitFld q.word 124 then wordRows s 1#4 (padAddr k (extLine q 104))
  else chunksOf 128 (((engineAt s k (fld q.word 114 4)).slice.getD []).map bf16To32)

/-- The ranges of UAPPLY. -/
def updateRanges (k : Nat) (q : QInstr) : List Range :=
  let w := q.word
  let wm := padAddr k (lineAt q 40)
  let st := padAddr k (lineAt q 64)
  let n := if fld w 112 2 = 1 then 65536 else 32768
  let copy (on : Bool) (l sc : Nat) : List Range := if on then
      [{ addr := padAddr k l, len := tileBytes (fmtFld w 118) 4, write := true },
       { addr := padAddr k sc, len := scaleBytes (fmtFld w 118) 4, write := true }] else []
  [{ addr := wm, len := 65536, write := false }, { addr := st, len := n, write := false },
   { addr := padAddr k (lineAt q 88), len := 64, write := false },
   { addr := wm, len := 65536, write := true }, { addr := st, len := n, write := true }] ++
  (if bitFld w 124 then [{ addr := padAddr k (extLine q 104), len := 32768, write := false }]
   else [engineRange k (fld w 114 4) (2 ^ 18) 4096]) ++
  copy (bitFld w 122) (extLine q 8) (extLine q 56) ++ copy (bitFld w 123) (extLine q 32) (extLine q 80)

/-- The effect of UAPPLY: every g finite, and the tile updated; or any g not finite, and the tile skipped (06 R184). -/
def updateTile (s : State) (k : Nat) (q : QInstr) : State :=
  guarded s k codeU q (updateRanges k q) (fun s =>
    let w := q.word
    let wm := padAddr k (lineAt q 40)
    let st := padAddr k (lineAt q 64)
    let p := readParams (readBytes s (padAddr k (lineAt q 88)) 64)
    let gs := (gradientRows s k q).map (fun r => r.map (fun g => mul32 p.gs g))
    let gf := gs.flatten.foldl (fun f g => f ||| g.2) flagNone
    if gs.any (fun r => r.any (fun g => !(val32 g.1).isFin)) then
      let nan := gs.any (fun r => r.any (fun g => (val32 g.1).isNan))
      setFlags (modCluster s k (fun c => { c with skipped := c.skipped + 1 })) k q.task
        (gf ||| (if nan then flagNanIn else flagNone))
    else
      let ws := wordRows s 0#4 wm
      let ms := wordRows s 1#4 st
      let vs := if fld w 112 2 = 1 then wordRows s 1#4 (st + 32768) else ms.map (fun r => r.map (fun _ => 0))
      let us := (List.range 128).map (fun i => (List.range 128).map (fun j =>
        updateElem (fld w 112 2) p (((gs.getD i []).getD j (0, 0)).1) ((ws.getD i []).getD j 0)
          ((ms.getD i []).getD j 0) ((vs.getD i []).getD j 0)))
      let wt := packTile 0#4 (us.map (fun r => r.map (fun u => wordVal u.w))) wm 0 3 3
      let mt := packTile 1#4 (us.map (fun r => r.map (fun u => wordVal u.m))) st 0 3 3
      let vt := if fld w 112 2 = 1 then packTile 1#4 (us.map (fun r => r.map (fun u => wordVal u.v))) (st + 32768) 0 3 3
        else ([], flagNone)
      let ct := copyWrites k q (us.map (fun r => r.map (fun u => u.w)))
      let s := padWrites s k (wt.1 ++ mt.1 ++ vt.1 ++ ct.1)
      let s := setFlags s k q.task (gf ||| us.flatten.foldl (fun f u => f ||| u.f) flagNone ||| mt.2 ||| vt.2 ||| ct.2)
      modCluster s k (fun c => { c with updated := c.updated + 1 }))

/-- The U-unit runs one instruction at a time (06 R179). -/
def unitFree (s : State) (k : Nat) : Bool := (engineAt s k codeU).flight.isEmpty

/-- UNOP (06 R180). -/
def execUnop (k : ClusterId) (s : State) : Host.Outcome State Fault Refusal :=
  .next (runEngine s k.val codeU 0 (fun s _ => unitFree s k.val) (fun s _ => s))

/-- UAPPLY (06 R181 to R187). With SLICE 0 it waits until the buffer of its SRC engine is full. -/
def execUapply (k : ClusterId) (s : State) : Host.Outcome State Fault Refusal :=
  .next (runEngine s k.val codeU 1
    (fun s q => unitFree s k.val &&
      (bitFld q.word 124 || (engineAt s k.val (fld q.word 114 4)).slice.isSome))
    (fun s q => updateTile s k.val q))

/-- The effect of UCAST: working copies of a master tile (06 R185). -/
def castTile (s : State) (k : Nat) (q : QInstr) : State :=
  let wm := padAddr k (lineAt q 40)
  let ws := copyWrites k q (wordRows s 0#4 wm)
  guarded s k codeU q ({ addr := wm, len := 65536, write := false } :: writeRanges ws.1) (fun s =>
    setFlags (padWrites s k ws.1) k q.task ws.2)

/-- UCAST (06 R181, R185). -/
def execUcast (k : ClusterId) (s : State) : Host.Outcome State Fault Refusal :=
  .next (runEngine s k.val codeU 2 (fun s _ => unitFree s k.val) (fun s q => castTile s k.val q))

end Sys2Proof.Machine
end

