-- ==== Sys2Proof/Machine/Upkeep.lean ====
section
/-!
DEFINITION. Faults that the hardware reports, slate release and reload, haze thresholds, and the upkeep of the stacks (spec
05 R146 to R148; 08 R227, R229, R237, R238, R241, R242; 14 R392; 15 R396 to R404).
-/
namespace Sys2Proof.Machine
open Sys2Proof

/-! ### Array check events (05 R146 to R148; 15 Table 15.1) -/

/-- 24 h, in units of 0.25 ns. -/
def day : Nat := 345600000000000

/-- Events of the last 24 h against a row or a column of an array, with the one now. -/
def eventsAgainst (l : List (Nat × Nat × Nat)) (array line t : Nat) : Nat :=
  (l.filter (fun x => x.1 == array && x.2.1 == line && t < x.2.2 + day)).length

/-- The entry of a replacement in service. -/
def replacement (s : State) (kind n l e line : Nat) : DWord :=
  chooseSpare s.dl.entries (defEntry kind 2 n (l + 16 * e + 256 * line) s.su.startCount.toNat)

/-- A row or a column replaced during the abandonment, or its array retired where no spare is free. -/
def replaceLine (s : State) (n : Site) (l e kind line detail : Nat) (t : Time) : State :=
  let d := replacement s kind n.val l e line
  if defKind d = kind then
    let s := raise s (.site n) 1 e l detail (some t)
    let s := retire s (.site n) kind (defDetail d) actReplay e l
    modSite s n.val (fun r => { r with repair := repairOf s n.val })
  else
    raiseSite (noteRetired s 5 n.val l) n 3 e l 0 false (some t)

/-- Whether a site's compute domain is powered and clocked. -/
def computeUp (s : State) (n : Nat) : Bool := (siteAt s n).state == .running || (siteAt s n).state == .slateIdle

/-- ARRAY_CHECK_EVENT (05 R146): counted; in ride-through mode it counts against the row and the column too, and the row
is replaced before the column. Later events of one recovery are handled in it (15 Table 15.9). -/
def execArrayCheckEvent (n : Site) (l : Fin 8) (engine : Fin 6) (row col : Fin 132) (t : Time) (s : State) :
    Host.Outcome State Fault Refusal :=
  if !computeUp s n.val then .next s
  else
    let array := 6 * l.val + engine.val
    let detail := row.val + 256 * col.val
    let s := modSite s n.val (fun r => { r with checks := r.checks + 1 })
    if !(jobRunning s && rideThrough s) then .next (raise s (.site n) 1 engine.val l.val detail (some t))
    else
      let s := modSite s n.val (fun r => { r with
        rowCounts := r.rowCounts ++ [(array, row.val, t)]
        colCounts := r.colCounts ++ [(array, col.val, t)] })
      if 1 < eventsAgainst (siteAt s n.val).rowCounts array row.val t then
        .next (replaceLine s n l.val engine.val 6 row.val detail t)
      else if 1 < eventsAgainst (siteAt s n.val).colCounts array col.val t then
        .next (replaceLine s n l.val engine.val 7 col.val detail t)
      else .next (raise s (.site n) 1 engine.val l.val detail (some t))

/-! ### Data errors (08 R237, R241) -/

/-- Whether a line has copies: carry of a ride-through job, once the copies of its start are done (02 R56). -/
def hasCopies (s : State) (a : Nat) : Bool := rideThrough s && s.job.copiesDone && (regionOf s a).isSome

/-- A word of a stack line: a carry line is served from its partner and rewritten, a haze event, unless the partner's word is
uncorrectable too. -/
def stackDataError (s : State) (n a : Nat) (noCopy : Bool) : State :=
  if rideThrough s && (regionOf s a).isSome then
    if noCopy || !hasCopies s a then stackError s n (a / 8) true
    else modStack (haze (restoreLine s (a / 64) (copyLine s 1 (a / 64))) 1) n (fun r => { r with errors := r.errors + 1 })
  else stackError s n (a / 8) false

/-- DATA_ERROR (08 R241; 10 R283). Of a word in a router the spec gives no fault code: 02h, against its site (DESIGN CHOICE, log
entry 76). -/
def execDataError (place : DataErrorAt) (s : State) : Host.Outcome State Fault Refusal :=
  if !jobRunning s || s.tick.recovery.active then .next s
  else match place with
    | .scratchpad k e a noCopy =>
      (match placeOf a with
       | .pad c off =>
         if !clusterHeld s c then .next s
         else if rideThrough s && noCopy && (regionOf s a).isSome then
           .next (raise (countPadError s c) (clusterUnit s c) 8 (engineCode e) (c % 8) 0 none)
         else .next (dataErrorPad s c (if c = k.val then engineCode e else noEngine) (memKey s a / 8) (off / 64))
       | _ => .next s)
    | .engineMemory k e word =>
      if clusterHeld s k.val then
        .next (dataErrorPad s k.val (engineCode e) (engineWord k.val (engineCode e) word) (word / 8 % 2 ^ 21))
      else .next s
    | .stack a noCopy =>
      (match placeOf a with
       | .stack n _ => .next (stackDataError s n a noCopy)
       | _ => .next s)
    | .router n => .next (raise s (.site n) 2 noEngine 0 0 none)

/-! ### Failures of domains and channels (15 Table 15.2; 08 R229) -/

/-- Whether a site has a compute domain to fail. -/
def computeAlive (s : State) (n : Nat) : Bool := (siteAt s n).state != .dark && (siteAt s n).state != .forwardOnly

/-- COMPUTE_DOMAIN_FAILURE: fault 04h. -/
def execComputeDomainFailure (n : Site) (s : State) : Host.Outcome State Fault Refusal :=
  .next (if computeAlive s n.val then raiseSite (noteRetired s 4 n.val 0) n 4 noEngine 0 0 false none else s)

/-- The links of a failed seam domain, both ways: each direction that is not retired yet is lost, and every unit learns it (10
R287, Table 10.10). The entries of the site's own directions stand under the site's. -/
def loseSiteLinks (s : State) (n : Nat) : State :=
  (siteLinks n).foldl (fun a key =>
    if (linkAt a key).state == .retired then a
    else
      let a := tellAll (markLink a key .retired) key
      if key / 16 = n then a else noteRetired a 2 (unitNumber (keyUnit key)) (key % 16)) s

/-- SEAM_DOMAIN_FAILURE: fault 05h; the links of the site are lost and the site is dark. -/
def execSeamDomainFailure (n : Site) (s : State) : Host.Outcome State Fault Refusal :=
  .next (if (siteAt s n.val).state == .dark then s
    else raiseSite (loseSiteLinks (noteRetired s 3 n.val 0) n.val) n 5 noEngine 0 0 true none)

/-! ### Where lines lie (08 R211, R226, R228, R232) -/

/-- The bank and the row of a scratchpad line (08 R211). -/
def padBank (line : Nat) : Nat :=
  let h := ([3, 4, 5, 6, 7, 8, 9].map (fun f => bitsAt line (2 * f) 2)).foldl (fun a b => a ^^^ b) 0 ^^^ bitsAt line 20 1
  line % 64 ^^^ 16 * h
def padRow (line : Nat) : Nat := line / 64

/-- The stack channel of a stack line, its position within the channel, and the JESD270-4 channel (08 R226). -/
def lineChannel (line : Nat) : Nat := line % 64 ^^^ line / 64 % 64
def linePosition (line : Nat) : Nat := line / 64
def jedecChannel (channel : Nat) : Nat := channel / 2

/-- Lines of an aligned group of 64, from one place in it up to another, whose channel a test takes. -/
def groupLines (group lo hi : Nat) (takes : Nat → Bool) : List Nat :=
  ((List.range 64).filter (fun i => lo ≤ i && i < hi && takes (lineChannel (64 * group + i)))).map (fun i => 64 * group + i)

/-- Line i, counted from 0, of those at or above a line that lie in healthy channels; every whole group has the same number. -/
def healthySlot (retired : BitVec 64) (limit i : Nat) : Nat :=
  let ok (c : Nat) : Bool := !retired.getLsbD c
  let first := groupLines (limit / 64) (limit % 64) 64 ok
  let per := ((List.range 64).filter ok).length
  if i < first.length then first.getD i 0
  else (groupLines (limit / 64 + 1 + (i - first.length) / per) 0 64 ok).getD ((i - first.length) % per) 0

/-- The slot that stores a populated line: its own, or for a line of a retired channel the slot of a line cut off (08 R228). -/
def slotOf (s : State) (n line : Nat) : Nat :=
  let r := stackAt s n
  let gone (c : Nat) : Bool := r.retired.getLsbD c
  if gone (lineChannel line) then
    let before := ((List.range 64).filter gone).length * (line / 64) + (groupLines (line / 64) 0 (line % 64) gone).length
    healthySlot r.retired r.populated before
  else line

/-- The stack that holds a bank of copy c of a module address, and the line in it: the declared address, or a place in the
reserve. None: it lies in no stack. -/
def copyPlace (s : State) (copy bank a : Nat) : Option (Nat × Nat) :=
  let inReserve (p : JobPlan) (r : CarryRegion) (n : Nat) : Option (Nat × Nat) :=
    (((reserveOf s p n).getD []).find? (fun x => x.2.copy == copy && x.2.bank == bank && x.2.region == r)).map
      (fun x => (n, (x.1 + (a - r.base)) / 64))
  if copy = 0 && bank = 0 then
    match placeOf a with
    | .stack n off => some (n, off / 64)
    | _ => none
  else
    match s.job.plan, regionOf s a with
    | some p, some r =>
      let holder : Option Nat :=
        if r.stack then (if copy = 0 then some (r.base / stackWindow) else partnerOf s (r.base / stackWindow))
        else if copy = 0 then none
        else (backingOf s ((r.base - padBase) / padWindow / 8)).map (fun b => if copy = 1 then b.1 else b.2)
      holder.bind (inReserve p r)
    | _, _ => none

/-- Whether a bank of a copy of an address lies in a channel of a stack. -/
def inChannel (s : State) (n c copy bank a : Nat) : Bool :=
  match copyPlace s copy bank a with
  | some x => x.1 == n && lineChannel (slotOf s n x.2) == c
  | none => false

/-- The committed bank of the line of a key: 0 pale, 1 dark. -/
def markBank (s : State) (key : Nat) : Nat := if s.mem.darkIn.contains (key / 64) then 1 else 0

/-! ### Failure of a stack channel (08 R229) -/

/-- A cell of a bank after a channel has failed: where it lay in the channel its byte is free, but the committed byte of a carry
line at its home, which its mirror keeps. -/
def channelCell (s : State) (n c bank : Nat) (x : Host.Cell) : Host.Cell :=
  match keyAddr s x.1 with
  | none => x
  | some a =>
    let copy := x.1 / 2 ^ 48
    if !inChannel s n c copy bank a then x
    else if copy = 0 && bank = markBank s x.1 && hasCopies s a && (goodCopy s [1] (a / 64)).isSome then
      (x.1, committedByte s (copyKey 1 a))
    else (x.1, Config.freeByte (s.mem.epoch + 1) x.1)

/-- Stack carry lines, as module lines, of which one copy lay in a failed channel. -/
def oneCopyLeft (s : State) (n c : Nat) : List Nat :=
  match s.job.plan with
  | none => []
  | some p =>
    (p.carry.filter (fun r => r.stack)).flatMap (fun r =>
      ((List.range (r.length / 64)).map (fun i => r.base / 64 + i)).filter (fun line =>
        hasCopies s (64 * line) && (inChannel s n c 0 (markBank s (64 * line)) (64 * line) ||
          inChannel s n c 1 (markBank s (copyKey 1 (64 * line))) (64 * line))))

/-- The contents of a failed channel lost; each carry line left with one good copy is counted at its home (08 R237). -/
def loseChannel (s : State) (n c : Nat) : State :=
  let t := { s with mem := { s.mem with
    cells := s.mem.cells.map (channelCell s n c 0)
    dark := s.mem.dark.map (channelCell s n c 1)
    epoch := s.mem.epoch + 1 } }
  (oneCopyLeft s n c).foldl (fun t line => modStack t (64 * line / stackWindow)
    (fun r => { r with degraded := setInsert (64 * line % stackWindow / 64) r.degraded })) t

/-- STACK_CHANNEL_FAILURE (08 R229): fault 07h; the channel is retired at the next job start. -/
def execStackChannelFailure (n : RimId) (channel : Fin 64) (s : State) : Host.Outcome State Fault Refusal :=
  .next (if stackRetired s n.val then s
    else raise (noteRetired (loseChannel s n.val channel.val) 12 (72 + n.val) channel.val) (.rim n) 7 noEngine 0 0 none)

/-! ### Slate release and reload (15 R402 to R404; 08 R238) -/

/-- Takeovers changed. -/
def setTakeovers (s : State) (l : List Takeover) : State :=
  { s with tick := { s.tick with recovery := { s.tick.recovery with takeovers := l } } }

/-- SLATE_RELEASE_DONE: the reload begins. -/
def execSlateReleaseDone (n : Site) (s : State) : Host.Outcome State Fault Refusal :=
  .next (setTakeovers s (s.tick.recovery.takeovers.map (fun t => if t.slate = n.val then { t with released := true } else t)))

/-- The line addresses, as module lines, of a logical chiplet's scratchpad carry of which a backing copy lists anything. -/
def backedLines (s : State) (m : Nat) : List Nat :=
  let keys := s.mem.cells.map Prod.fst ++ s.mem.dark.map Prod.fst ++ s.mem.upset.map (fun u => 8 * u.1)
  let mine (key : Nat) : Option Nat :=
    if key < 2 ^ 48 || 2 ^ 50 ≤ key then none
    else match placeOf (key % 2 ^ 48) with
      | .pad k _ => if k / 8 = m then some (key % 2 ^ 48 / 64) else none
      | _ => none
  (keys.filterMap mine).foldl (fun l x => setInsert x l) []

/-- One line restored to the slate from a good backing copy: the committed bank's contents and its mark. -/
def reloadLine (s : State) (c to_ m line : Nat) : State :=
  let key := (64 * line - m * 8 * padWindow + to_ * 8 * padWindow) / 64
  let others := s.mem.darkIn.filter (fun l => l != key)
  let s' := { s with mem := { s.mem with
    darkIn := if s.mem.darkIn.contains (copyKey c (64 * line) / 64) then others ++ [key] else others } }
  restoreLine s' key (copyLine s c line)

/-- Lines restored in turn, from the primary copy, else from the secondary (08 R238); also the first line that has no good
copy. -/
def reloadLines (to_ m : Nat) : List Nat → State → State × Option Nat
  | [], s => (s, none)
  | line :: r, s =>
    match goodCopy s [1, 2] line with
    | some c => reloadLines to_ m r (reloadLine s c to_ m line)
    | none => (s, some line)

/-- The cells of a site gone: what the failed site and the slate held. -/
def clearPads (s : State) (site : Nat) : State :=
  let own (key : Nat) : Bool := key < 2 ^ 48 && padBase ≤ key && (key - padBase) / padWindow / 8 == site
  { s with mem := { s.mem with
    cells := s.mem.cells.filter (fun x => !own x.1)
    dark := s.mem.dark.filter (fun x => !own x.1)
    darkIn := s.mem.darkIn.filter (fun l => !own (64 * l)) } }

/-- The carry of a logical chiplet brought from its backing copies to its new site. -/
def reloadCarry (s : State) (from_ to_ m : Nat) : State × Option Nat :=
  let s := clearPads (clearPads s from_) to_
  reloadLines to_ m (backedLines s m) s

/-- SLATE_RELOAD_DONE. A line with no good copy is fault 08h. -/
def execSlateReloadDone (n : Site) (s : State) : Host.Outcome State Fault Refusal :=
  match s.tick.recovery.takeovers.find? (fun t => t.slate == n.val && t.released) with
  | none => .next s
  | some t =>
    let r := reloadCarry s t.failed n.val t.chiplet
    match r.2 with
    | none => .next (setTakeovers r.1 (r.1.tick.recovery.takeovers.filter (fun x => x.slate != n.val)))
    | some line => .next (raise r.1 (.site n) 8 noEngine (padCluster (64 * line) % 8) 0 none)

/-! ### Haze thresholds (15 Table 15.1) -/

/-- A defect of service whose effect waits for the next start: not where the list already names or covers it. -/
def retireLater (s : State) (unit : UnitId) (kind detail lcl : Nat) : State :=
  let e := defEntry kind 2 (unitNumber unit) detail 0
  let known (x : DWord) : Bool := defCovers x e || defSame x e ||
    (isSpared kind && defKind x == kind && defUnit x == defUnit e && defectName x == defectName e)
  if s.dl.entries.any known then s else retire s unit kind detail actNextStart noEngine lcl

/-- HAZE_THRESHOLD_EXCEEDED (15 R396). -/
def execHazeThresholdExceeded (c : HazeChannel) (s : State) : Host.Outcome State Fault Refusal :=
  match c with
  | .seamLane d lane => .next (laneFails s (dirKey d) lane.val)
  | .seamDirection d =>
    let st := (linkAt s (dirKey d)).state
    .next (if st == .full || st == .narrow then closeLink s (dirKey d) else s)
  | .fabricLane p lane => .next (portLaneFails s p.val lane.val)
  | .fabricPort p => .next (if portUp (portAt s p.val) then closePort s p.val else s)
  | .bankRow n l bank row => .next (retireLater s (.site n) 8 (l.val + 8 * bank.val + 1024 * (row % 2 ^ 15)) l.val)
  | .cacheGroup n group => .next (retireLater s (.site n) 9 (group % 2 ^ 20) 0)
  | .stackChannel n channel => .next (retireLater s (.rim n) 12 channel.val 0)

/-! ### The stacks (08 R227, R242; 14 R392) -/

/-- What a line of a stack holds in service: a bank of a copy of a module line, as the reserve lays it, or its own line. -/
def scrubbed (s : State) (n line : Nat) : Nat × Nat × Nat :=
  let off := 64 * line
  let found := match s.job.plan with
    | some p => if rideThrough s then ((reserveOf s p n).getD []).find? (fun (x : Nat × ReserveItem) => x.1 ≤ off && off < x.1 + x.2.region.length) else none
    | none => none
  match found with
  | some x => (x.2.copy, x.2.bank, (x.2.region.base + (off - x.1)) / 64)
  | none => (0, 0, (n * stackWindow + off) / 64)

/-- The bytes of a copy of a line; copy 0 is its home. -/
def bytesOfCopy (s : State) (c line : Nat) : List Byte := if c = 0 then readBytes s (64 * line) 64 else copyLine s c line

/-- A line rewritten from another copy, where it has a good one. -/
def scrubHeal (s : State) (copy line : Nat) : State :=
  if !hasCopies s (64 * line) then s
  else
    let others := match placeOf (64 * line) with
      | .stack _ _ => [1 - copy]
      | _ => [3 - copy]
    match goodCopy s others line with
    | some c => restoreLine s (copyKey copy (64 * line) / 64) (bytesOfCopy s c line)
    | none => s

/-- PATROL_SCRUB (08 R242) of a line of a stack, whatever it holds: corrected words are counted and rewritten; uncorrectable ones
are counted, and the line is rewritten from its mirror where it has one. -/
def execPatrolScrub (n : RimId) (line : Nat) (s : State) : Host.Outcome State Fault Refusal :=
  if (stackAt s n.val).populated ≤ line then .next s
  else
    let x := scrubbed s n.val line
    let us := if markBank s (copyKey x.1 (64 * x.2.2)) = x.2.1 then upsetsIn s.mem x.1 (64 * x.2.2) 64 else []
    let fixed := us.filter (fun u => u.2 == .single)
    let bad := us.filter (fun u => u.2 == .double)
    let s := haze (healKeys s (fixed.map Prod.fst)) fixed.length
    let s := if bad.isEmpty then s else scrubHeal s x.1 x.2.2
    .next (modStack s n.val (fun r => { r with
      scrubAt := line
      corrected := r.corrected + BitVec.ofNat 64 fixed.length
      errors := r.errors + BitVec.ofNat 32 bad.length }))

/-- STACK_REFRESH: above 85 degrees the interval is halved. -/
def execStackRefresh (n : RimId) (celsius : Int) (s : State) : Host.Outcome State Fault Refusal :=
  .next (modStack s n.val (fun r => { r with refresh := if 85 < celsius then 1 else 0 }))

/-- STACK_RETRAIN: one JESD270-4 channel; no result changes. -/
def execStackRetrain (n : RimId) (channel : Fin 32) (s : State) : Host.Outcome State Fault Refusal :=
  let _ := channel
  .next (modStack s n.val (fun r => { r with retrains := r.retrains + 1 }))

end Sys2Proof.Machine
end

