-- ==== Sys2Proof/Machine/Dispatch.lean ====
section
/-!
DEFINITION. The dispatch of the commands: one arm per constructor of Instr.
-/
namespace Sys2Proof.Machine
open Sys2Proof

/-- The effect of a command on everything but the queue. -/
def exec (i : Instr) (s : State) : Host.Outcome State Fault Refusal :=
  match i with
  | .tickEdge t drain => Sys2Proof.Machine.execTickEdge t drain s
  | .tickInPulse t drain => Sys2Proof.Machine.execTickInPulse t drain s
  | .flywheelEdge drain => Sys2Proof.Machine.execFlywheelEdge drain s
  | .tickSourceLost => Sys2Proof.Machine.execTickSourceLost s
  | .beaconReceived port t seq offset hops good drain => Sys2Proof.Machine.execBeaconReceived port t seq offset hops good drain s
  | .censusTimeout drain => Sys2Proof.Machine.execCensusTimeout drain s
  | .domainVoteReceived port t pkt drain => Sys2Proof.Machine.execDomainVoteReceived port t pkt drain s
  | .voteWaitExpiry drain => Sys2Proof.Machine.execVoteWaitExpiry drain s
  | .frameOverrun => Sys2Proof.Machine.execFrameOverrun s
  | .writeOutComplete => Sys2Proof.Machine.execWriteOutComplete s
  | .vcoreRampDone site => Sys2Proof.Machine.execVcoreRampDone site s
  | .jobControlStart p => Sys2Proof.Machine.execJobControlStart p s
  | .jobControlEndAtCommit p => Sys2Proof.Machine.execJobControlEndAtCommit p s
  | .jobControlEndNow p => Sys2Proof.Machine.execJobControlEndNow p s
  | .serviceJobStart p => Sys2Proof.Machine.execServiceJobStart p s
  | .serviceJobEnd p => Sys2Proof.Machine.execServiceJobEnd p s
  | .jobStartCopiesDone fault => Sys2Proof.Machine.execJobStartCopiesDone fault s
  | .ownershipClaim p => Sys2Proof.Machine.execOwnershipClaim p s
  | .ownershipRelease p => Sys2Proof.Machine.execOwnershipRelease p s
  | .ownershipRevoke p => Sys2Proof.Machine.execOwnershipRevoke p s
  | .memoryWindowWrite p data => Sys2Proof.Machine.execMemoryWindowWrite p data s
  | .memoryWindowRead p length => Sys2Proof.Machine.execMemoryWindowRead p length s
  | .numericFlagsClear p k => Sys2Proof.Machine.execNumericFlagsClear p k s
  | .diagnosticArm p k value => Sys2Proof.Machine.execDiagnosticArm p k value s
  | .seamResetNow p site => Sys2Proof.Machine.execSeamResetNow p site s
  | .seamResetAtJobEnd p site => Sys2Proof.Machine.execSeamResetAtJobEnd p site s
  | .seamResetWithdraw p site => Sys2Proof.Machine.execSeamResetWithdraw p site s
  | .seamResetComplete site lanes => Sys2Proof.Machine.execSeamResetComplete site lanes s
  | .computeDomainReset p site => Sys2Proof.Machine.execComputeDomainReset p site s
  | .computeResetComplete site failures verified => Sys2Proof.Machine.execComputeResetComplete site failures verified s
  | .stagedFieldWrite p rec sub data => Sys2Proof.Machine.execStagedFieldWrite p rec sub data s
  | .stagedCommitAtTick p rec t => Sys2Proof.Machine.execStagedCommitAtTick p rec t s
  | .stagedCommitNow p rec => Sys2Proof.Machine.execStagedCommitNow p rec s
  | .stagedDiscard p rec => Sys2Proof.Machine.execStagedDiscard p rec s
  | .objectWrite p index sub data => Sys2Proof.Machine.execObjectWrite p index sub data s
  | .usdoSegment p index sub seg => Sys2Proof.Machine.execUsdoSegment p index sub seg s
  | .usdoTimeout p => Sys2Proof.Machine.execUsdoTimeout p s
  | .powerStateRun p => Sys2Proof.Machine.execPowerStateRun p s
  | .powerStateHold p => Sys2Proof.Machine.execPowerStateHold p s
  | .powerStatePark p => Sys2Proof.Machine.execPowerStatePark p s
  | .powerStateQuiet p => Sys2Proof.Machine.execPowerStateQuiet p s
  | .powerStateChangeDone => Sys2Proof.Machine.execPowerStateChangeDone s
  | .rackBudgetWrite p watts => Sys2Proof.Machine.execRackBudgetWrite p watts s
  | .budgetTimeout => Sys2Proof.Machine.execBudgetTimeout s
  | .crownWitness p epoch => Sys2Proof.Machine.execCrownWitness p epoch s
  | .lifetimeEnergyRead p => Sys2Proof.Machine.execLifetimeEnergyRead p s
  | .attestationChallenge p nonce => Sys2Proof.Machine.execAttestationChallenge p nonce s
  | .attestationReportReady h => Sys2Proof.Machine.execAttestationReportReady h s
  | .imageSetUpload p data => Sys2Proof.Machine.execImageSetUpload p data s
  | .activationClusterService p => Sys2Proof.Machine.execActivationClusterService p s
  | .activationFullRestart p => Sys2Proof.Machine.execActivationFullRestart p s
  | .defectListClearRequest p data => Sys2Proof.Machine.execDefectListClearRequest p data s
  | .managementRoutesWrite p data => Sys2Proof.Machine.execManagementRoutesWrite p data s
  | .managementRequest r => Sys2Proof.Machine.execManagementRequest r s
  | .managementForward port pkt => Sys2Proof.Machine.execManagementForward port pkt s
  | .nmtStart h => Sys2Proof.Machine.execNmtStart h s
  | .nmtEnterPreOperational h => Sys2Proof.Machine.execNmtEnterPreOperational h s
  | .nmtResetCommunication h => Sys2Proof.Machine.execNmtResetCommunication h s
  | .nmtStop h => Sys2Proof.Machine.execNmtStop h s
  | .nmtResetNode h => Sys2Proof.Machine.execNmtResetNode h s
  | .nmtResetApplication h => Sys2Proof.Machine.execNmtResetApplication h s
  | .nmtHeartbeat h => Sys2Proof.Machine.execNmtHeartbeat h s
  | .crownHeartbeat h => Sys2Proof.Machine.execCrownHeartbeat h s
  | .emcySend h => Sys2Proof.Machine.execEmcySend h s
  | .engineWordIssue k => Sys2Proof.Machine.execEngineWordIssue k s
  | .nop k => Sys2Proof.Machine.execNop k s
  | .seti k => Sys2Proof.Machine.execSeti k s
  | .addi k => Sys2Proof.Machine.execAddi k s
  | .br k => Sys2Proof.Machine.execBr k s
  | .loop k => Sys2Proof.Machine.execLoop k s
  | .testf k => Sys2Proof.Machine.execTestf k s
  | .clrf k => Sys2Proof.Machine.execClrf k s
  | .boil k => Sys2Proof.Machine.execBoil k s
  | .yield k => Sys2Proof.Machine.execYield k s
  | .fend k => Sys2Proof.Machine.execFend k s
  | .halt k => Sys2Proof.Machine.execHalt k s
  | .taskSwitch k => Sys2Proof.Machine.execTaskSwitch k s
  | .taskSwitchTimeout k => Sys2Proof.Machine.execTaskSwitchTimeout k s
  | .fnop k e => Sys2Proof.Machine.execFnop k e s
  | .fmm k e => Sys2Proof.Machine.execFmm k e s
  | .fload k e => Sys2Proof.Machine.execFload k e s
  | .fdrain k e => Sys2Proof.Machine.execFdrain k e s
  | .fclear k e => Sys2Proof.Machine.execFclear k e s
  | .gnop k e => Sys2Proof.Machine.execGnop k e s
  | .gmm k e => Sys2Proof.Machine.execGmm k e s
  | .gload k e => Sys2Proof.Machine.execGload k e s
  | .gdrain k e => Sys2Proof.Machine.execGdrain k e s
  | .gclear k e => Sys2Proof.Machine.execGclear k e s
  | .gmerge k e => Sys2Proof.Machine.execGmerge k e s
  | .gmpush k e => Sys2Proof.Machine.execGmpush k e s
  | .gmpop k e => Sys2Proof.Machine.execGmpop k e s
  | .galt k e => Sys2Proof.Machine.execGalt k e s
  | .mashSpillDone k lane => Sys2Proof.Machine.execMashSpillDone k lane s
  | .mashPrefetchArrival k lane => Sys2Proof.Machine.execMashPrefetchArrival k lane s
  | .unop k => Sys2Proof.Machine.execUnop k s
  | .uapply k => Sys2Proof.Machine.execUapply k s
  | .ucast k => Sys2Proof.Machine.execUcast k s
  | .vnop k e => Sys2Proof.Machine.execVnop k e s
  | .vld k e => Sys2Proof.Machine.execVld k e s
  | .vst k e => Sys2Proof.Machine.execVst k e s
  | .vbin k e => Sys2Proof.Machine.execVbin k e s
  | .vfma k e => Sys2Proof.Machine.execVfma k e s
  | .vun k e => Sys2Proof.Machine.execVun k e s
  | .vcmp k e => Sys2Proof.Machine.execVcmp k e s
  | .vsel k e => Sys2Proof.Machine.execVsel k e s
  | .vred k e => Sys2Proof.Machine.execVred k e s
  | .vcvt k e => Sys2Proof.Machine.execVcvt k e s
  | .vldl k e => Sys2Proof.Machine.execVldl k e s
  | .vstl k e => Sys2Proof.Machine.execVstl k e s
  | .mnop k e => Sys2Proof.Machine.execMnop k e s
  | .mcopy k e => Sys2Proof.Machine.execMcopy k e s
  | .madd k e => Sys2Proof.Machine.execMadd k e s
  | .msigAdd k e => Sys2Proof.Machine.execMsigAdd k e s
  | .msigSubtract k e => Sys2Proof.Machine.execMsigSubtract k e s
  | .msigSet k e => Sys2Proof.Machine.execMsigSet k e s
  | .msigRelay k e => Sys2Proof.Machine.execMsigRelay k e s
  | .instructionComplete k e at_ => Sys2Proof.Machine.execInstructionComplete k e at_ s
  | .syncSignalArrival at_ => Sys2Proof.Machine.execSyncSignalArrival at_ s
  | .relaySignalApply at_ => Sys2Proof.Machine.execRelaySignalApply at_ s
  | .bulkWriteReceived at_ => Sys2Proof.Machine.execBulkWriteReceived at_ s
  | .mergeWriteReceived at_ => Sys2Proof.Machine.execMergeWriteReceived at_ s
  | .bulkReadReceived at_ => Sys2Proof.Machine.execBulkReadReceived at_ s
  | .readDataReceived at_ => Sys2Proof.Machine.execReadDataReceived at_ s
  | .bulkAckReceived at_ => Sys2Proof.Machine.execBulkAckReceived at_ s
  | .rateRaise c => Sys2Proof.Machine.execRateRaise c s
  | .treeContributionReceived at_ => Sys2Proof.Machine.execTreeContributionReceived at_ s
  | .ordPacketRelease at_ => Sys2Proof.Machine.execOrdPacketRelease at_ s
  | .arrayCheckEvent site l engine row col t => Sys2Proof.Machine.execArrayCheckEvent site l engine row col t s
  | .slateReleaseDone site => Sys2Proof.Machine.execSlateReleaseDone site s
  | .slateReloadDone site => Sys2Proof.Machine.execSlateReloadDone site s
  | .dataError place => Sys2Proof.Machine.execDataError place s
  | .computeDomainFailure site => Sys2Proof.Machine.execComputeDomainFailure site s
  | .seamDomainFailure site => Sys2Proof.Machine.execSeamDomainFailure site s
  | .stackChannelFailure n channel => Sys2Proof.Machine.execStackChannelFailure n channel s
  | .hazeThresholdExceeded c => Sys2Proof.Machine.execHazeThresholdExceeded c s
  | .patrolScrub n line => Sys2Proof.Machine.execPatrolScrub n line s
  | .stackRefresh n celsius => Sys2Proof.Machine.execStackRefresh n celsius s
  | .stackRetrain n channel => Sys2Proof.Machine.execStackRetrain n channel s
  | .seamFlitReceived d upsets lane => Sys2Proof.Machine.execSeamFlitReceived d upsets lane s
  | .seamLaneFailure d lane => Sys2Proof.Machine.execSeamLaneFailure d lane s
  | .linkPauseEnd d => Sys2Proof.Machine.execLinkPauseEnd d s
  | .seamHealthUpdate u d => Sys2Proof.Machine.execSeamHealthUpdate u d s
  | .seamDrainComplete d => Sys2Proof.Machine.execSeamDrainComplete d s
  | .seamDrainTimeout d => Sys2Proof.Machine.execSeamDrainTimeout d s
  | .fabricCodewordReceived p cw => Sys2Proof.Machine.execFabricCodewordReceived p cw s
  | .fabricPacketReceived p t pkt => Sys2Proof.Machine.execFabricPacketReceived p t pkt s
  | .fabricLaneFailure p lane => Sys2Proof.Machine.execFabricLaneFailure p lane s
  | .fabricHealthUpdate smod port retired => Sys2Proof.Machine.execFabricHealthUpdate smod port retired s
  | .portDrainComplete p => Sys2Proof.Machine.execPortDrainComplete p s
  | .portDrainTimeout p => Sys2Proof.Machine.execPortDrainTimeout p s
  | .powerGood h t => Sys2Proof.Machine.execPowerGood h t s
  | .startUpAgreement t r => Sys2Proof.Machine.execStartUpAgreement t r s
  | .firmwareChunkReceived site l c => Sys2Proof.Machine.execFirmwareChunkReceived site l c s
  | .endOfPassReceived site l session => Sys2Proof.Machine.execEndOfPassReceived site l session s
  | .repairRequestReceived site l ranges => Sys2Proof.Machine.execRepairRequestReceived site l ranges s
  | .protectiveTrip h cause => Sys2Proof.Machine.execProtectiveTrip h cause s
  | .droopTrip site level relock => Sys2Proof.Machine.execDroopTrip site level relock s
  | .droopHoldExpiry site => Sys2Proof.Machine.execDroopHoldExpiry site s
  | .controlStep c => Sys2Proof.Machine.execControlStep c s
  | .calibrationWindow c => Sys2Proof.Machine.execCalibrationWindow c s
  | .energyIntegration north south => Sys2Proof.Machine.execEnergyIntegration north south s
  | .lifetimeEnergySave => Sys2Proof.Machine.execLifetimeEnergySave s
  | .lowFlowWarning flow => Sys2Proof.Machine.execLowFlowWarning flow s
  | .crownRenewal => Sys2Proof.Machine.execCrownRenewal s
  | .crownRenewalReceived => Sys2Proof.Machine.execCrownRenewalReceived s
  | .crownTake h => Sys2Proof.Machine.execCrownTake h s
  | .crownUnconfirmed h => Sys2Proof.Machine.execCrownUnconfirmed h s
  | .crossHalfCommand => Sys2Proof.Machine.execCrossHalfCommand s
  | .crossHalfTimeout => Sys2Proof.Machine.execCrossHalfTimeout s
  | .submit d t => Sys2Proof.Machine.execSubmit d t s
  | .prompt d => Sys2Proof.Machine.execPrompt d s
  | .ack d => Sys2Proof.Machine.execAck d s
  | .cancel d => Sys2Proof.Machine.execCancel d s
  | .tokensResend key => Sys2Proof.Machine.execTokensResend key s
  | .promptTimeout key => Sys2Proof.Machine.execPromptTimeout key s
  | .queueWaitExpiry key => Sys2Proof.Machine.execQueueWaitExpiry key s
  | .batchAdmission => Sys2Proof.Machine.execBatchAdmission s
  | .pageIn slot page => Sys2Proof.Machine.execPageIn slot page s
  | .pageOut slot page => Sys2Proof.Machine.execPageOut slot page s
  | .sampleToken slot => Sys2Proof.Machine.execSampleToken slot s
  | .serviceCutoff => Sys2Proof.Machine.execServiceCutoff s
  | .neighbourSolicitation port ip mac target => Sys2Proof.Machine.execNeighbourSolicitation port ip mac target s
  | .echoRequest port ip mac data => Sys2Proof.Machine.execEchoRequest port ip mac data s
  | .lossOfInput => Sys2Proof.Machine.execLossOfInput s
  | .southMaltsterClaims => Sys2Proof.Machine.execSouthMaltsterClaims s
  | .selfTestComplete site failures => Sys2Proof.Machine.execSelfTestComplete site failures s
  | .fabricPortTrained p locked peer delay => Sys2Proof.Machine.execFabricPortTrained p locked peer delay s
  | .ethernetLinkDown p => Sys2Proof.Machine.execEthernetLinkDown p s
  | .ethernetLinkUp p => Sys2Proof.Machine.execEthernetLinkUp p s
  | .discardedDatagram p reason => Sys2Proof.Machine.execDiscardedDatagram p reason s
  | .inletAbove45C tenths => Sys2Proof.Machine.execInletAbove45C tenths s

end Sys2Proof.Machine
end

