-- ==== Sys2Proof/Machine/ControlPage.lean ====
section
/-!
DEFINITION. The control window as the module's own firmware reads and writes it (spec 01 R27, R29, Table 1.8; 04 R115, Table
4.14; 06 R164; 09 R255). No command of the table is such an access (log entry 76): it is firmware that makes them, and the
clients read the same values in the objects of the dictionary.
-/
namespace Sys2Proof.Machine
open Sys2Proof

/-- What the control window answers to an access of firmware. -/
inductive PageReply where
  /-- An access that is not naturally aligned or not of 4 or 8 bytes: no effect. -/
  | refused
  /-- The bytes read. -/
  | data (bs : List Byte)
  /-- A page, or a place, whose contents the spec does not give. -/
  | notGiven
  /-- A write to a read-only page: no effect. -/
  | noEffect
deriving DecidableEq, Repr

/-- Whether firmware may access n bytes at an address of the window (01 R27). -/
def accessOk (a n : Nat) : Bool := (n == 4 || n == 8) && a % n == 0

/-- The sequencer status, bytes 0000h to 003Fh of a cluster control page (04 Table 4.14); reserved bytes are 0. -/
def statusBytes (c : Cluster) : List Byte :=
  leBytes 8 (seqStatus c) ++ leBytes 4 c.faultWord.toNat ++ leBytes 4 c.switches.toNat ++ leBytes 8 c.stalls.toNat ++ leBytes 40 0

/-- The resident task's mash state, as it stands (06 R164); a task without a mash stack shows zeros. -/
def mashPage (c : Cluster) : List Byte :=
  match c.cur.mash with
  | some m => mashImage m
  | none => leBytes 64 0

/-- The word of sync object j at offset 1000h + 8j (09 R255). -/
def syncPage (c : Cluster) (off : Nat) : List Byte := leBytes 8 (syncWord (c.syncObj ((off - 0x1000) / 8))).toNat

/-- n bytes at an offset of the control page of a logical cluster; a cluster that the job does not hold shows zeros. -/
def clusterPageAt (s : State) (k off n : Nat) : List Byte :=
  let c := clusterAt s k
  if !clusterHeld s k then leBytes n 0
  else if off < 0x40 then ((statusBytes c).drop off).take n
  else if 0x1000 ≤ off && off < 0x1180 then ((syncPage c off).drop (off % 8)).take n
  else if 0x2000 ≤ off && off < 0x2040 then ((mashPage c).drop (off - 0x2000)).take n
  else leBytes n 0

/-- The unit that a control page lies in (01 R29): a cluster's or chiplet's site by the table of the unit that asks, or the rim
die. -/
def pageUnit (s : State) (src a : Nat) : Option Nat :=
  match placeOf a with
  | .clusterPage k _ => siteBy s src (k / 8)
  | .chipletPage m _ => siteBy s src m
  | .rimPage n _ => some (72 + n)
  | .stack _ _ => none
  | .pad _ _ => none
  | .reserved => none

/-- A read by firmware of n bytes at an address of the control window. -/
def controlRead (s : State) (a n : Nat) : PageReply :=
  if !accessOk a n then .refused
  else match placeOf a with
    | .clusterPage k off => .data (clusterPageAt s k off n)
    | .chipletPage _ _ => .notGiven
    | .rimPage _ _ => .notGiven
    | .stack _ _ => .notGiven
    | .pad _ _ => .notGiven
    | .reserved => .notGiven

/-- A write by firmware: a cluster control page is read-only, and a write to it has no effect. -/
def controlWrite (s : State) (a : Nat) (bs : List Byte) : PageReply × State :=
  if !accessOk a bs.length then (.refused, s)
  else match placeOf a with
    | .clusterPage _ _ => (.noEffect, s)
    | .chipletPage _ _ => (.notGiven, s)
    | .rimPage _ _ => (.notGiven, s)
    | .stack _ _ => (.notGiven, s)
    | .pad _ _ => (.notGiven, s)
    | .reserved => (.notGiven, s)

end Sys2Proof.Machine
end

