-- ==== Sys2Proof/WellFormed.lean ====
section
/-!
DEFINITION. Which commands are well formed: what the doors of the block can carry. A command that no door can carry (a
codeword of 69 words, a chunk of 4,097 bytes) stands for no event of the hardware. Lengths that a rule answers with an
abort or a reject are well formed: the module answers them.
-/
namespace Sys2Proof

/-- Whether a list holds no element twice. -/
def noRepeat {α : Type} [BEq α] : List α → Bool
  | [] => true
  | x :: r => !r.contains x && noRepeat r

/-- A fabric packet: whole lines, at most 128 (11 R302). -/
def FabPacket.wf (p : FabPacket) : Bool := p.payload.length % 64 == 0 && p.payload.length ≤ 8192

/-- A fabric codeword: 70 words, and at most 15 corrected symbols of RS(544,514) (11 R294, R295). -/
def Codeword.wf (c : Codeword) : Bool := c.words.length == 70 && c.corrected ≤ 15

/-- A chunk: 1 to 4,096 bytes (14 R386, 17 R440). -/
def Chunk.wf (c : Chunk) : Bool := 1 ≤ c.data.length && c.data.length ≤ 4096

/-- A datagram: a UDP payload of at most 9,150 bytes (12 Table 12.2). -/
def Datagram.wf (d : Datagram) : Bool := d.payload.length ≤ 9150
/-- A frame that may be discarded. -/
def DiscardReason.wf : DiscardReason → Bool
  | .datagram d => d.wf
  | .vlanOrEtherType => true
  | .pause => true
  | .oversized => true
  | .icmpOther => true

/-- A management request: the data of one packet (16 R434). -/
def MgmtRequest.wf (r : MgmtRequest) : Bool := r.data.length ≤ 8192

/-- A self-test failure: numbers within their fields (14 Table 14.5). -/
def TestFailure.wf : TestFailure → Bool
  | .bankRow _ _ row => row < 2 ^ 15
  | .cacheGroup g => g < 2 ^ 20
  | .accMemory _ => true
  | .peRow _ _ _ => true
  | .peCol _ _ _ => true
  | .engineUnit _ => true
  | .droopOrEstimator => true

/-- A haze channel: numbers within their fields (14 Table 14.5). -/
def HazeChannel.wf : HazeChannel → Bool
  | .bankRow _ _ _ row => row < 2 ^ 15
  | .cacheGroup _ g => g < 2 ^ 20
  | .seamLane _ _ => true
  | .seamDirection _ => true
  | .fabricLane _ _ => true
  | .fabricPort _ => true
  | .stackChannel _ _ => true

/-- A report of training: each lane once (14 Table 14.3). -/
def TrainingReport.wf (r : TrainingReport) : Bool := noRepeat r.unread && noRepeat r.lanes && noRepeat r.channels && noRepeat r.cores && noRepeat r.rimFail

/-- Readings of a control step: each cluster, site and rim die once (13 R350). -/
def ControlInputs.wf (c : ControlInputs) : Bool :=
  noRepeat (c.clusters.map (fun x => x.k)) && noRepeat (c.sites.map (fun x => x.s)) && noRepeat (c.rims.map (fun x => x.n))

/-- Readings of a calibration window: each rail once (13 R351). -/
def CalibrationInputs.wf (c : CalibrationInputs) : Bool := noRepeat (c.rails.map (fun x => (x.unit, x.rail)))

/-- A range of missing chunks (14 R388). -/
def rangeOk (r : Nat × Nat) : Bool := r.1 ≤ r.2

/-- What the copies of a job start can meet: faults 06h and 08h (16 R430). -/
def CopyFault.wf (f : CopyFault) : Bool := f.code == 6#8 || f.code == 8#8

/-- Whether a command is well formed. A transfer of the dictionary counts its bytes in 32 bits (16 R423, R434). -/
def Instr.wf : Instr → Bool
  | .tickEdge _ _ => true
  | .tickInPulse _ _ => true
  | .flywheelEdge _ => true
  | .tickSourceLost => true
  | .beaconReceived _ _ _ _ _ _ _ => true
  | .censusTimeout _ => true
  | .domainVoteReceived _ _ p _ => p.wf
  | .voteWaitExpiry _ => true
  | .frameOverrun => true
  | .writeOutComplete => true
  | .vcoreRampDone _ => true
  | .jobControlStart _ => true
  | .jobControlEndAtCommit _ => true
  | .jobControlEndNow _ => true
  | .serviceJobStart _ => true
  | .serviceJobEnd _ => true
  | .jobStartCopiesDone f => (match f with | some x => x.wf | none => true)
  | .ownershipClaim _ => true
  | .ownershipRelease _ => true
  | .ownershipRevoke _ => true
  | .memoryWindowWrite _ d => d.length ≤ 2 ^ 32
  | .memoryWindowRead _ n => n ≤ 2 ^ 32
  | .numericFlagsClear _ _ => true
  | .diagnosticArm _ _ _ => true
  | .seamResetNow _ _ => true
  | .seamResetAtJobEnd _ _ => true
  | .seamResetWithdraw _ _ => true
  | .seamResetComplete _ lanes => noRepeat lanes
  | .computeDomainReset _ _ => true
  | .computeResetComplete _ fs _ => fs.all TestFailure.wf
  | .stagedFieldWrite _ _ _ d => d.length ≤ 2 ^ 32
  | .stagedCommitAtTick _ _ _ => true
  | .stagedCommitNow _ _ => true
  | .stagedDiscard _ _ => true
  | .objectWrite _ _ _ d => d.length ≤ 2 ^ 32
  | .usdoSegment _ _ _ seg => (match seg with | .write d _ => d.length ≤ 2 ^ 32 | .read n => n ≤ 2 ^ 32)
  | .usdoTimeout _ => true
  | .powerStateRun _ => true
  | .powerStateHold _ => true
  | .powerStatePark _ => true
  | .powerStateQuiet _ => true
  | .powerStateChangeDone => true
  | .rackBudgetWrite _ _ => true
  | .budgetTimeout => true
  | .crownWitness _ _ => true
  | .lifetimeEnergyRead _ => true
  | .attestationChallenge _ nonce => nonce.length ≤ 2 ^ 32
  | .attestationReportReady _ => true
  | .imageSetUpload _ d => d.length ≤ 2 ^ 32
  | .activationClusterService _ => true
  | .activationFullRestart _ => true
  | .defectListClearRequest _ d => d.length ≤ 2 ^ 32
  | .managementRoutesWrite _ d => d.length ≤ 2 ^ 32
  | .managementRequest r => r.wf
  | .managementForward _ p => p.wf
  | .nmtStart _ => true
  | .nmtEnterPreOperational _ => true
  | .nmtResetCommunication _ => true
  | .nmtStop _ => true
  | .nmtResetNode _ => true
  | .nmtResetApplication _ => true
  | .nmtHeartbeat _ => true
  | .crownHeartbeat _ => true
  | .emcySend _ => true
  | .engineWordIssue _ => true
  | .nop _ => true
  | .seti _ => true
  | .addi _ => true
  | .br _ => true
  | .loop _ => true
  | .testf _ => true
  | .clrf _ => true
  | .boil _ => true
  | .yield _ => true
  | .fend _ => true
  | .halt _ => true
  | .taskSwitch _ => true
  | .taskSwitchTimeout _ => true
  | .fnop _ _ => true
  | .fmm _ _ => true
  | .fload _ _ => true
  | .fdrain _ _ => true
  | .fclear _ _ => true
  | .gnop _ _ => true
  | .gmm _ _ => true
  | .gload _ _ => true
  | .gdrain _ _ => true
  | .gclear _ _ => true
  | .gmerge _ _ => true
  | .gmpush _ _ => true
  | .gmpop _ _ => true
  | .galt k e => k.val % 8 == 7 && (e == .g2 || e == .g3)
  | .mashSpillDone _ _ => true
  | .mashPrefetchArrival _ _ => true
  | .unop _ => true
  | .uapply _ => true
  | .ucast _ => true
  | .vnop _ _ => true
  | .vld _ _ => true
  | .vst _ _ => true
  | .vbin _ _ => true
  | .vfma _ _ => true
  | .vun _ _ => true
  | .vcmp _ _ => true
  | .vsel _ _ => true
  | .vred _ _ => true
  | .vcvt _ _ => true
  | .vldl _ _ => true
  | .vstl _ _ => true
  | .mnop _ _ => true
  | .mcopy _ _ => true
  | .madd _ _ => true
  | .msigAdd _ _ => true
  | .msigSubtract _ _ => true
  | .msigSet _ _ => true
  | .msigRelay _ _ => true
  | .instructionComplete _ _ _ => true
  | .syncSignalArrival _ => true
  | .relaySignalApply _ => true
  | .bulkWriteReceived _ => true
  | .mergeWriteReceived _ => true
  | .bulkReadReceived _ => true
  | .readDataReceived _ => true
  | .bulkAckReceived _ => true
  | .rateRaise _ => true
  | .treeContributionReceived _ => true
  | .ordPacketRelease _ => true
  | .arrayCheckEvent _ _ _ _ _ _ => true
  | .slateReleaseDone _ => true
  | .slateReloadDone _ => true
  | .dataError _ => true
  | .computeDomainFailure _ => true
  | .seamDomainFailure _ => true
  | .stackChannelFailure _ _ => true
  | .hazeThresholdExceeded c => c.wf
  | .patrolScrub _ _ => true
  | .stackRefresh _ _ => true
  | .stackRetrain _ _ => true
  | .seamFlitReceived _ upsets _ => upsets.length ≤ 8
  | .seamLaneFailure _ _ => true
  | .linkPauseEnd _ => true
  | .seamHealthUpdate u _ => (match u with | .site _ => true | .rim _ => true | .maltster _ => false | .module => false)
  | .seamDrainComplete _ => true
  | .seamDrainTimeout _ => true
  | .fabricCodewordReceived _ c => c.wf
  | .fabricPacketReceived _ _ p => p.wf
  | .fabricLaneFailure _ _ => true
  | .fabricHealthUpdate _ _ _ => true
  | .portDrainComplete _ => true
  | .portDrainTimeout _ => true
  | .powerGood _ _ => true
  | .startUpAgreement _ r => r.wf
  | .firmwareChunkReceived _ _ c => c.wf
  | .endOfPassReceived _ _ _ => true
  | .repairRequestReceived _ _ ranges => ranges.length ≤ 64 && ranges.all rangeOk
  | .protectiveTrip _ _ => true
  | .droopTrip _ _ _ => true
  | .droopHoldExpiry _ => true
  | .controlStep c => c.wf
  | .calibrationWindow c => c.wf
  | .energyIntegration _ _ => true
  | .lifetimeEnergySave => true
  | .lowFlowWarning _ => true
  | .crownRenewal => true
  | .crownRenewalReceived => true
  | .crownTake _ => true
  | .crownUnconfirmed _ => true
  | .crossHalfCommand => true
  | .crossHalfTimeout => true
  | .submit d _ => d.wf
  | .prompt d => d.wf
  | .ack d => d.wf
  | .cancel d => d.wf
  | .tokensResend _ => true
  | .promptTimeout _ => true
  | .queueWaitExpiry _ => true
  | .batchAdmission => true
  | .pageIn _ _ => true
  | .pageOut _ _ => true
  | .sampleToken _ => true
  | .serviceCutoff => true
  | .neighbourSolicitation _ _ _ _ => true
  | .echoRequest _ _ _ data => data.length ≤ 9150
  | .lossOfInput => true
  | .southMaltsterClaims => true
  | .selfTestComplete _ fs => fs.all TestFailure.wf
  | .fabricPortTrained _ _ _ _ => true
  | .ethernetLinkDown _ => true
  | .ethernetLinkUp _ => true
  | .discardedDatagram _ r => r.wf
  | .inletAbove45C _ => true

/-- The bytes of payload that a command brings into the block. -/
def Instr.payload : Instr → Nat
  | .memoryWindowWrite _ d => d.length
  | .stagedFieldWrite _ _ _ d => d.length
  | .objectWrite _ _ _ d => d.length
  | .usdoSegment _ _ _ seg => (match seg with | .write d _ => d.length | .read _ => 0)
  | .attestationChallenge _ nonce => nonce.length
  | .imageSetUpload _ d => d.length
  | .defectListClearRequest _ d => d.length
  | .managementRoutesWrite _ d => d.length
  | .managementRequest r => r.data.length
  | .managementForward _ p => p.payload.length
  | .fabricCodewordReceived _ c => 8 * c.words.length
  | .fabricPacketReceived _ _ p => p.payload.length
  | .firmwareChunkReceived _ _ c => c.data.length
  | .domainVoteReceived _ _ p _ => p.payload.length
  | .submit d _ => d.payload.length
  | .prompt d => d.payload.length
  | .ack d => d.payload.length
  | .cancel d => d.payload.length
  | .echoRequest _ _ _ data => data.length
  | .discardedDatagram _ (.datagram d) => d.payload.length
  | _ => 0

end Sys2Proof
end

