-- ==== Sys2Proof/Safety.lean ====
section
/-!
DEFINITION. What counts as a safe run of the block, and the words in which the claims are put: when a sequencer word
or an engine instruction takes effect, which accesses the dictionary answers, and what a command leaves alone.
-/
namespace Sys2Proof

/-- The states that a number of steps from a state can reach without a stop. -/
def Safety.reaches (n : Nat) (s t : Machine.State) : Prop :=
  match n with
  | 0 => t = s
  | n + 1 => ∃ u, Machine.step s = .next u ∧ Safety.reaches n u t

/-- A state from which the block goes on. -/
def Safety.goesOn (s : Machine.State) : Prop := ∃ t, Machine.step s = .next t

end Sys2Proof

namespace Sys2Proof.Claim
open Sys2Proof.Machine

/-! ### Frames -/

/-- Nothing differs but the record of cluster k. -/
def OnlyCluster (s t : State) (k : Nat) : Prop :=
  t = { s with clusters := t.clusters } ∧ ∀ j, j ≠ k → clusterAt t j = clusterAt s j

/-- Every byte that the job can read, of either bank, reads as before. -/
def SameBytes (s t : State) : Prop :=
  ∀ a, readByte t a = readByte s a ∧ latestByte t a = latestByte s a

/-! ### Sequencer words (04 R95, R96) -/

/-- The PC of the resident task. -/
def pcOf (s : State) (k : Nat) : Nat := (clusterAt s k).cur.pc

/-- The cluster once the sequencer has come to word w, which waits: its wait has begun, and was judged with the others on the
object (09 R246). -/
def seqJoined (c : Cluster) (w : IWord) : Cluster :=
  if c.seqWait then c else beginWait { c with seqWait := true } seqWaiter (wWaitObj w) (wWaitN w)

/-- The word at the PC of cluster k's resident task is a legal word w of sequencer opcode op, no upset lies in it, and
neither its BARRIER nor its wait holds it back. -/
def SeqWord (s : State) (k op : Nat) (w : IWord) : Prop :=
  mayIssue s k = true ∧
  wordAt s k (clusterAt s k).cur.entry (pcOf s k) = some w ∧
  wClass w = 1 ∧ wOpcode w = op ∧
  upsetsIn s.mem 0 (memKey s (wordAddr k (clusterAt s k).cur.entry (pcOf s k))) 16 = [] ∧
  issueCode k (clusterAt s k) none w = 0 ∧
  (wBarrier w = true → (clusterAt s k).idle = true) ∧
  (wWaitObj w = noObj ∨ (seqJoined (clusterAt s k) w).seqMet = true)

/-- Engine d of cluster k as before, but for whether the wait of its head has been met meanwhile. -/
def SameButMet (s t : State) (k d : Nat) : Prop :=
  engineAt t k d = { engineAt s k d with met := (engineAt t k d).met }

/-- What every sequencer word leaves alone: all but the cluster; in the cluster, all but its resident task and the object
that the word waits on. That object is as the begun wait left it: with no earlier waiter and units enough, N lower. No wait of
an engine is touched but by that object. -/
def SeqFrame (s t : State) (k : Nat) (w : IWord) : Prop :=
  OnlyCluster s t k ∧
  (∀ n, n ≠ (clusterAt s k).resident → (clusterAt t k).task n = (clusterAt s k).task n) ∧
  (∀ j, j ≠ wWaitObj w → (clusterAt t k).syncObj j = (clusterAt s k).syncObj j) ∧
  (wWaitObj w ≠ noObj → (clusterAt t k).syncObj (wWaitObj w) = (seqJoined (clusterAt s k) w).syncObj (wWaitObj w)) ∧
  (wWaitObj w ≠ noObj → (clusterAt s k).seqWait = false → ((clusterAt s k).syncObj (wWaitObj w)).waiters = [] →
    wWaitN w ≤ ((clusterAt s k).syncObj (wWaitObj w)).value.toNat →
    ((clusterAt t k).syncObj (wWaitObj w)).value.toNat =
      ((clusterAt s k).syncObj (wWaitObj w)).value.toNat - wWaitN w) ∧
  (∀ d, SameButMet s t k d) ∧
  (wWaitObj w = noObj → (clusterAt t k).engines = (clusterAt s k).engines)

/-- The rest of a cluster's record. -/
def SeqRest (s t : State) (k : Nat) : Prop :=
  clusterAt t k = { clusterAt s k with
    tasks := (clusterAt t k).tasks, sync := (clusterAt t k).sync, engines := (clusterAt t k).engines
    seqWait := (clusterAt t k).seqWait, seqMet := (clusterAt t k).seqMet }

/-- What a stream fault leaves: the record of fault 0Eh at the end of the log, its detail the stream fault word, and a job
that has ended by that fault with no frame running and nothing pending (04 R116, Table 4.16; 15 Tables 15.2 and 15.6). -/
def StreamFaultEnds (s t : State) (k code engine pc : Nat) : Prop :=
  t.flt.log = lastOf 256 (s.flt.log ++ [faultRecord s.tick.count 0x0E 4 3 (unitNumber (clusterUnit s k))
    (if engine < 11 then engine else 15) (k % 8)
    (code % 256 + 2 ^ 8 * (engine % 16) + 2 ^ 12 * (pc % 2 ^ 20))]) ∧
  t.job.endReason = 3 ∧ t.job.endFault = 0x0E ∧ t.tick.issueOn = false ∧ t.mem.pending = [] ∧
  (t.job.state = .ending ∨ t.job.state = .none) ∧ t.tick.committed = s.tick.committed

/-- The condition of BR (04 Table 4.6). -/
def Taken (cond : Nat) (v : Word) : Prop :=
  cond = 0 ∨ (cond = 1 ∧ v = 0) ∨ (cond = 2 ∧ v ≠ 0) ∨ (cond = 3 ∧ v.toInt < 0) ∨ (cond = 4 ∧ 0 ≤ v.toInt) ∨
  (cond = 5 ∧ 0 < v.toInt)

/-! ### Issue of engine words (04 R91, R92, R98) -/

/-- The word at the PC is a legal engine word w, with its extension word in front of it where `ext` names one; pc is the
PC of w. -/
def EngineWord (s : State) (k : Nat) (ext : Option IWord) (w : IWord) (pc : Nat) : Prop :=
  mayIssue s k = true ∧
  (match ext with
   | none => wordAt s k (clusterAt s k).cur.entry (pcOf s k) = some w ∧ pc = pcOf s k
   | some x => wordAt s k (clusterAt s k).cur.entry (pcOf s k) = some x ∧ wClass x = 2 ∧
       wordAt s k (clusterAt s k).cur.entry (pcOf s k + 1) = some w ∧ pc = pcOf s k + 1) ∧
  upsetsIn s.mem 0 (memKey s (wordAddr k (clusterAt s k).cur.entry (pcOf s k))) 16 = [] ∧
  upsetsIn s.mem 0 (memKey s (wordAddr k (clusterAt s k).cur.entry pc)) 16 = [] ∧
  wClass w = 0

/-- A task that a switch may enter. -/
def ReadyTask (c : Cluster) (n : Nat) : Prop :=
  c.hasTask n = true ∧ (c.task n).frameDone = false ∧ (c.task n).halted = false

/-- The next task of a switch: the first ready one after the resident one in rising number, wrapping round from 3 to 0. -/
def NextTask (c : Cluster) (n : Nat) : Prop :=
  ∃ d, 1 ≤ d ∧ d ≤ 3 ∧ n = (c.resident + d) % 4 ∧ ReadyTask c n ∧
    ∀ e, 1 ≤ e → e < d → ¬ ReadyTask c ((c.resident + e) % 4)
/-- No other task is ready. -/
def NoNextTask (c : Cluster) : Prop := ∀ d, 1 ≤ d → d ≤ 3 → ¬ ReadyTask c ((c.resident + d) % 4)

/-! ### Engine instructions (04 R98, R99) -/

/-- The head of engine e's queue is instruction q with an opcode; it may start, and its wait, if it has one, is met. -/
def Starts (s : State) (k e op : Nat) (q : QInstr) : Prop :=
  mayStart s k = true ∧ (engineAt s k e).queue.head? = some q ∧ wOpcode q.word = op ∧
  (wWaitObj q.word = noObj ∨ (engineAt s k e).met = true)

/-- The object and the units for which the instruction behind the head of an engine's queue will wait, if it will. -/
def nextWait (s : State) (k e : Nat) : Option (Nat × Nat) :=
  match (engineAt s k e).queue.tail with
  | [] => none
  | q :: _ => if wWaitObj q.word = noObj then none else some (wWaitObj q.word, wWaitN q.word)

/-- What every started instruction shows: it has left its queue and is in flight, and the instruction behind it begins its wait.
No other object changes, and no other engine but for waits that this one's join met. -/
def Started (s t : State) (k e : Nat) (q : QInstr) : Prop :=
  (engineAt t k e).queue = (engineAt s k e).queue.tail ∧
  (engineAt t k e).flight = (engineAt s k e).flight ++
    [{ instr := q, upTo := (engineAt s k e).issued, reads := 0, before := watchedSlot (clusterAt s k) e }] ∧
  (∀ j, (∀ n, nextWait s k e ≠ some (j, n)) → (clusterAt t k).syncObj j = (clusterAt s k).syncObj j) ∧
  (∀ j n, nextWait s k e = some (j, n) →
    (clusterAt t k).syncObj j = (beginWait (clusterAt s k) e j n).syncObj j) ∧
  (∀ d, d ≠ e → SameButMet s t k d) ∧
  (nextWait s k e = none → ∀ d, d ≠ e → engineAt t k d = engineAt s k d)

/-- A started instruction whose effect stays in its cluster: no byte of memory, no other cluster and nothing else of the
block changes. -/
def StartedInside (s t : State) (k e : Nat) (q : QInstr) : Prop := OnlyCluster s t k ∧ Started s t k e q

/-- Every range is one that the job may access, no stream lies where it writes, and no upset lies where a bank reads for it:
all of a read range, and of a write range the words written in part. -/
def Accessible (s : State) (rs : List Range) : Prop :=
  firstFault s rs = none ∧ ∀ p ∈ rs.flatMap Range.read, upsetsIn s.mem 0 (memKey s p.1) p.2 = []

/-- The slot that an instruction acts on, after it: its group and its pairs. Every other slot of the engine stays. -/
def SlotHolds (s t : State) (k e slot group : Nat) (pairs : List DWord) : Prop :=
  tfind (engineAt t k e).slots slot = some { group := group, pairs := pairs } ∧
  ∀ i, i ≠ slot → tfind (engineAt t k e).slots i = tfind (engineAt s k e).slots i

/-- The start value of an instruction that opens a group, or that continues the one on the slot. -/
def startPairs (s : State) (k e slot : Nat) (opens : Bool) : List DWord :=
  if opens then List.replicate 16384 zeroPair else slotPairs (engineAt s k e) slot

/-- Only the sticky flags of a cluster and of the task of an instruction gain bits; every other field of the cluster's
record but its engines, its objects and the waits on them stays. -/
def FlagsOnly (s t : State) (k task : Nat) (f : Flags) : Prop :=
  (clusterAt t k).flags = (clusterAt s k).flags ||| f ∧
  (∀ n, n ≠ task → (clusterAt t k).task n = (clusterAt s k).task n) ∧
  ((clusterAt s k).hasTask task = true → (clusterAt t k).task task =
    { (clusterAt s k).task task with tflags := ((clusterAt s k).task task).tflags ||| f }) ∧
  clusterAt t k = { clusterAt s k with
    tasks := (clusterAt t k).tasks, engines := (clusterAt t k).engines, sync := (clusterAt t k).sync
    seqMet := (clusterAt t k).seqMet, flags := (clusterAt t k).flags }

/-- An engine's record but its queue, its instructions in flight and the wait of its head. -/
def SameEngine (s t : State) (k e : Nat) : Prop :=
  engineAt t k e = { engineAt s k e with
    queue := (engineAt t k e).queue, flight := (engineAt t k e).flight, met := (engineAt t k e).met }

/-- A slot freed, with its group closed. Every other slot of the engine stays. -/
def SlotFreed (s t : State) (k e slot : Nat) : Prop :=
  tfind (engineAt t k e).slots slot = none ∧
  ∀ i, i ≠ slot → tfind (engineAt t k e).slots i = tfind (engineAt s k e).slots i

/-- PE (i, j) of an array after a product: row i of A against row j of B, in increasing k, onto its start value (05 R118,
R119). Where `gates` allows it, a product with a zero element leaves the pair as it is (05 R143). -/
def ArrayHolds (gates : List Bool) (start pairs : List DWord) (a b : List (List Val)) : Prop :=
  pairs.length = 16384 ∧ ∀ i j, i < 128 → j < 128 →
    pairs.getD (128 * i + j) 0 = (dotPair gates (start.getD (128 * i + j) 0) (a.getD i []) (b.getD j [])).1

/-- The operands A and B of FMM (g false) and GMM (g true). -/
def operandA (g : Bool) (s : State) (k : Nat) (q : QInstr) : Operand :=
  operandOf s k (g && bitFld q.word 120) (fmtFld q.word 96) (lineAt q 40) (extLine q 8) (g && bitFld q.word 118)
def operandB (g : Bool) (s : State) (k : Nat) (q : QInstr) : Operand :=
  operandOf s k (g && bitFld q.word 121) (fmtFld q.word 100) (lineAt q 64) (extLine q 32) (g && bitFld q.word 119)

/-- The descriptor lines that a GMM reads. -/
def productDescs (g : Bool) (k : Nat) (q : QInstr) : List Range :=
  (if g && bitFld q.word 120 then [{ addr := padAddr k (extLine q 8), len := 64, write := false }] else []) ++
  (if g && bitFld q.word 121 then [{ addr := padAddr k (extLine q 32), len := 64, write := false }] else [])

/-- What a product reads: the active bands of its operands, and the slot that it goes on with. -/
def productRanges (g : Bool) (s : State) (k e : Nat) (q : QInstr) : List Range :=
  let w := q.word
  let kb := fld w 88 7 + 1
  (operandA g s k q).ranges kb (fld w 114 2) ++ (operandB g s k q).ranges kb (fld w 116 2) ++
    (if fld w 112 2 = 1 then [] else [slotRange k e (fld w 104 3)])

/-- What FMM and GMM do, where their ranges are accessible and their formats pair. -/
def Multiplies (g : Bool) (s t : State) (k e : Nat) (q : QInstr) : Prop :=
  let w := q.word
  let kb := fld w 88 7 + 1
  let start := startPairs s k e (fld w 104 3) (fld w 112 2 == 1)
  let a := (operandA g s k q).rows s kb (fld w 114 2)
  let b := (operandB g s k q).rows s kb (fld w 116 2)
  let paired := (operandA g s k q).fmt == 8#4 && (operandB g s k q).fmt == 8#4
  ∃ pairs f, StartedInside s t k e q ∧ SlotHolds s t k e (fld w 104 3) (fld w 108 3) pairs ∧
    ArrayHolds (gatesOf a b (32 * kb) paired) start pairs a b ∧
    FlagsOnly s t k q.task f ∧
    (engineAt t k e).products = (engineAt s k e).products + BitVec.ofNat 64 (16384 * (32 * kb)) ∧
    (engineAt t k e).tiles = (engineAt s k e).tiles ∧ (engineAt t k e).slice = (engineAt s k e).slice

/-- What a drain reads and writes: its slot, its output, and the ring slots of its mash lane. -/
def drainRanges (s : State) (k e : Nat) (q : QInstr) (d : Drain) (ws : List Write) : List Range :=
  slotRange k e d.slot :: writeRanges ws ++ (match taskMash s k q.task with
    | some m => (if d.mash then pushRanges k m d.lane else []) ++ (if isDeriv d.func then popRanges k m d.lane else [])
    | none => [])

/-- The rows of a drained slot, the entry that a derivative reads, and the values that go to the output. -/
def drainPairs (s : State) (k e : Nat) (d : Drain) : List (List DWord) := slotRows (slotPairs (engineAt s k e) d.slot)
def drainEntry (s : State) (k : Nat) (q : QInstr) (d : Drain) : List (List Val) :=
  if isDeriv d.func then mashTop s k q.task d.lane else []
def drainValues (s : State) (k e : Nat) (q : QInstr) (d : Drain) : List (List (Val × Val)) :=
  (drainRows d.g d.func (drainPairs s k e d) (drainEntry s k q d) d.rowb d.colb).1

/-- The writes of a drain: its output tile at OUT, and its twin, turned, where it has one. -/
def drainOutput (s : State) (k e : Nat) (q : QInstr) (d : Drain) : List Write :=
  (drainWrites d (drainPairs s k e d) (drainValues s k e q d) (padAddr k (lineAt q 40)) (padAddr k (extLine q 8))
    d.rowb d.colb).1 ++
  (if d.twin then (drainWrites d [] (turned (Val.zero, Val.zero) 128 (drainValues s k e q d)) (padAddr k (extLine q 32))
    (padAddr k (extLine q 56)) d.colb d.rowb).1 else [])

/-- The writes of a push on a mash lane: the entry at its ring slot, converted to MFMT. -/
def pushWrites (k : Nat) (m : Mash) (lane : Nat) (rows : List (List (Val × Val))) : List Write :=
  (packTile m.mfmt rows (ringAddr k m lane (m.depth lane)) (ringAddr k m lane (m.depth lane) + mashScaleOff m) 3 3).1

/-- Nothing differs but the clusters' records, memory, packets added to the bulk network and the sites' counters of routes
beyond the primary one, and of the clusters only cluster k. -/
def InsidePad (s t : State) (k : Nat) : Prop :=
  t = { s with clusters := t.clusters, mem := t.mem
               noc := { s.noc with bulk := t.noc.bulk, nextId := t.noc.nextId }
               topo := { s.topo with sites := t.topo.sites } } ∧
  (∀ j, j ≠ k → clusterAt t j = clusterAt s j) ∧
  ∀ n, siteAt t n = { siteAt s n with fallbacks := (siteAt t n).fallbacks }

/-- Two memories that hold the same bytes in both banks, with the same marks; upsets and caches may differ. -/
def SameBanks (m m' : Memory) : Prop :=
  m.cells = m'.cells ∧ m.dark = m'.dark ∧ m.darkIn = m'.darkIn ∧ m.pending = m'.pending ∧ m.written = m'.written ∧
  m.epoch = m'.epoch

/-- In ride-through mode, room for an instruction's carry lines: its cluster's write-through queue is not full, and each stack
can be reached (08 R235; 10 R274). -/
def CarryFlows (s : State) (k : Nat) : Prop :=
  rideThrough s = true →
    (clusterAt s k).wtQueue.length < 1024 ∧ ∀ n, n < 16 → passage s (clusterHome s k) (72 + n) 0 ≠ .unreachable

/-- The home of every entry of a mash lane can be reached (06 R163). -/
def SpillFlows (s : State) (k lane : Nat) (m : Mash) : Prop :=
  m.lo lane ≤ m.se ∧ ∀ d, d < m.se →
    passage s (clusterHome s k) (homeUnit s (clusterHome s k) (homeAddr m lane d)) 0 ≠ .unreachable

/-! ### Packets of the on-chip networks (10 R270 to R276) -/

/-- Packet i of the bulk network, for which every direction that is left of its route is open: none is paused, and the buffer
behind each has room. -/
def Crosses (s : State) (i : Nat) (p : BulkPacket) : Prop :=
  jobRunning s = true ∧ s.noc.bulk[i]? = some p ∧ p.way.held = false ∧
  ∀ h ∈ p.way.hops, (linkAt s h.key).paused = false ∧ bulkFlits s i p.kind.response h + p.flits ≤ bufferFlits

/-- Packet i of the sync network, in the same way. -/
def CrossesSync (s : State) (i : Nat) (p : SyncPacket) : Prop :=
  jobRunning s = true ∧ s.noc.sync[i]? = some p ∧ p.way.held = false ∧
  ∀ h ∈ p.way.hops, (linkAt s h.key).paused = false ∧ syncFlits s i h < bufferFlits

/-- The state in which a packet stands at its destination: its age took one free value where it had a hop to go. -/
def travelled (s : State) (w : Transit) : State := if w.hops = [] then s else { s with freeCtr := s.freeCtr + 1 }

/-- A packet of given contents set out from unit a to unit b: it stands on the network, whatever its way. -/
def SetOut (l : List BulkPacket) (p : Transit → BulkPacket) (a b : Nat) : Prop :=
  ∃ w : Transit, w.at_ = a ∧ w.dest = b ∧ p w ∈ l

/-- A site that is neither in compute reset nor forward-only, or a rim die: a packet for it is not sunk. -/
def Takes (s : State) (u : Nat) : Prop := sunkAt s u = false

/-- The object that a signal names, at its destination: on the live objects of the resident task, outside steps 2 to 4 of
a task switch. -/
def LiveTarget (s : State) (g : Signal) : Prop :=
  (clusterAt s g.dstK).resident = g.task ∧
  ¬ ((clusterAt s g.dstK).seq = .switching ∧ switchReady (clusterAt s g.dstK) = true)

/-- The value of an object after a signal (09 R245): add holds at FFFFh, subtract at 0, set takes the amount. -/
def signalValue (v op amount : Nat) : Nat :=
  if op = 0 then min (v + amount) 0xFFFF else if op = 1 then v - amount else amount % 65536

/-- A signal on an object (09 R245, R246): its value is what the signal makes of it, less the units of the waits that it then
meets, in the order in which they began; those waits end. Add sets OVF where it holds, subtract UNF, set neither. -/
def Signalled (o o' : SyncObj) (op amount : Nat) : Prop :=
  o'.value.toNat = (judgeWaiters o.waiters (signalValue o.value.toNat op amount)).1 ∧
  o'.waiters = (judgeWaiters o.waiters (signalValue o.value.toNat op amount)).2.1 ∧
  o'.ovf = (o.ovf || (decide (op = 0) && decide (0xFFFF < o.value.toNat + amount))) ∧
  o'.unf = (o.unf || (decide (op = 1) && decide (o.value.toNat < amount)))

/-! ### The tick and the end of a job (02 R36 to R49, 15 R414) -/

/-- Between two ticks: nothing is due, no recovery runs, no vote is kept, and the crown is not withheld. -/
def BetweenTicks (s : State) : Prop :=
  s.tick.on = true ∧ s.tick.phase = .idle ∧ s.tick.overrun = false ∧ s.tick.lossDue = false ∧
  s.tick.recovery.active = false ∧ s.tick.votes = [] ∧ s.crown.withheld = []

/-- An edge without a job: it is counted, and an empty frame commits. The job, the memory and the fault log stay. -/
def EmptyFrame (s t : State) : Prop :=
  t.tick.count = s.tick.count + 1 ∧ t.tick.committed = s.tick.committed + 1 ∧ t.tick.seq = s.tick.seq + 1 ∧
  t.tick.phase = .idle ∧ t.job = s.job ∧ t.mem.cells = s.mem.cells ∧ t.mem.dark = s.mem.dark ∧ t.flt = s.flt

/-- An edge in a frame of which some unit has not drained: it is counted, issue stops, and the census runs. -/
def CensusRuns (s t : State) : Prop :=
  t.tick.count = s.tick.count + 1 ∧ t.tick.phase = .census ∧ t.tick.issueOn = false ∧
  t.tick.committed = s.tick.committed ∧ t.tick.seq = s.tick.seq ∧ t.job = s.job ∧ t.mem = s.mem ∧
  t.clusters = s.clusters ∧ t.noc = s.noc

/-- A held tick: it is counted, the remote caches are emptied (08 R223), and the frame goes on as it stood; past the hold limit an overrun is due. -/
def TickHeld (s t : State) : Prop :=
  t.tick.held = s.tick.held + 1 ∧ t.tick.holds = s.tick.holds + 1 ∧ t.tick.seq = s.tick.seq ∧
  t.tick.committed = s.tick.committed ∧ t.tick.phase = .idle ∧
  t.tick.overrun = decide (s.tick.cfg.holdLim.toNat < s.tick.holds + 1) ∧
  (t.tick.overrun = false → s.tick.lossDue = false → t.tick.issueOn = true) ∧
  t.mem = { s.mem with caches := [] } ∧ t.clusters = s.clusters ∧ t.noc = s.noc ∧ t.job = s.job ∧ t.flt = s.flt

/-- A committing tick in a running job: the banks of the pending lines flip, and the next frame begins. -/
def FrameCommits (s t : State) : Prop :=
  t.tick.committed = s.tick.committed + 1 ∧ t.tick.seq = s.tick.seq + 1 ∧ t.tick.holds = 0 ∧ t.tick.phase = .idle ∧
  t.tick.issueOn = true ∧ t.mem.darkIn = (commitMarks s.mem).darkIn ∧ t.mem.pending = [] ∧ t.mem.caches = [] ∧
  t.job = s.job

/-- The end of a job with a reason and a fault code: no frame runs, nothing is pending, and no frame more has committed.
In ride-through mode the write-out follows, unless the job has begun no frame. -/
def JobEnded (s t : State) (reason code : Nat) : Prop :=
  t.job.endReason = BitVec.ofNat 8 reason ∧ t.job.endFault = BitVec.ofNat 8 code ∧
  t.job.endFrames = s.tick.committed ∧ t.tick.committed = s.tick.committed ∧ t.tick.issueOn = false ∧
  t.mem.pending = [] ∧ t.mem.caches = [] ∧
  t.job.state = (if rideThrough s = true ∧ s.job.state ≠ .starting then .ending else .none) ∧
  (t.job.state = .ending → t.mem.cells = s.mem.cells ∧ t.mem.dark = s.mem.dark ∧ t.mem.darkIn = s.mem.darkIn) ∧
  (t.job.state = .none → t.clusters = [] ∧ t.job.plan = none)

/-- One record more in the fault log, of which the latest 256 stay (15 R412). -/
def Logged (s t : State) (r : BitVec 128) : Prop :=
  t.flt.log = lastOf 256 (s.flt.log ++ [r]) ∧ t.flt.faults = s.flt.faults + 1

/-- A record as the module writes it (15 Tables 15.2 and 15.6). -/
def record (s : State) (u : UnitId) (code action eng lcl detail : Nat) : BitVec 128 :=
  faultRecord s.tick.count code (faultClass code) action (unitNumber u) eng lcl detail

/-! ### Accesses to the dictionary (16 R422) -/

/-- A write of n bytes passes every check that precedes the object's own: the maltster answers, index, sub-index, access
right, owner, a transfer in progress, length, and the crown that every carried write needs. -/
def Admitted (s : State) (p : Party) (i sub n : Nat) : Prop :=
  isAnswered s p = true ∧ writeBarred s p i sub = none ∧ lengthBad s p i sub n = false ∧ crownMissing s p i sub = false

/-- A read passes every check that precedes the object's own. -/
def Readable (s : State) (p : Party) (i sub : Nat) : Prop := isAnswered s p = true ∧ ∃ o, readBarred s p i sub = .ok o

/-- One more answer to a party. -/
def Answered (s t : State) (p : Party) (i sub : Nat) (r : Reply) : Prop :=
  t.out.sdo = s.out.sdo ++ [{ party := p, index := i, sub := sub, reply := r }]

/-- A job as its start leaves it (16 R429; 02 R58; 15 R413, R414): the plan of the descriptor, the writer the owner of a
module that had none, every frame counter, the fault log and the end record cleared. -/
def JobStarts (s t : State) (p : Party) (d : List Byte) (by_ : Placer) : Prop :=
  t.job.state = .starting ∧ t.job.plan = some (jobPlanOf d) ∧ t.job.placedBy = some by_ ∧ t.job.refusal = 0 ∧
  t.job.endReason = 0 ∧ t.job.endFault = 0 ∧ t.dict.owner = some (s.dict.owner.getD p) ∧
  t.tick.count = 0 ∧ t.tick.seq = 0 ∧ t.tick.committed = 0 ∧ t.tick.held = 0 ∧ t.tick.cfg = s.tick.cfg ∧
  t.flt = { log := [], faults := 0, haze := 0, retire := 0 } ∧
  t.mem.pending = [] ∧ t.mem.dark = [] ∧ t.mem.darkIn = [] ∧ t.mem.caches = [] ∧ t.topo.remapGen = 0

end Sys2Proof.Claim
end

