-- ==== Sys2Proof/Certificates/Slice0/Obligations.lean ====
section
/-!
DEFINITION. The statements for the provers. Each docstring names the rule that the statement formalises.
-/
open Sys2Proof Sys2Proof.Machine

/-! ## The block as a whole -/

/-- 95 of the spec: each step is one whole command, in the order in which the commands were sent. A block without a
waiting command stays as it is (the model's choice, log entry 1); no row of the table has bits, so no word spells a
command. The model's own readings in it: log entries 1, 2. -/
def Obligations.StepRunsTheFrontCommand : Prop :=
  (∀ (c : Instr) (rest : List Instr) (s : State),
    step { s with pending := c :: rest } = exec c { s with pending := rest }) ∧
  (∀ s : State, s.pending = [] → step s = .next s) ∧
  (∀ n w : Nat, Sys2Proof.decodeTableWord n w = none) ∧
  (∀ (s : State) (n w : Nat), s.withFetchWord n w = s)

/-- The Default columns of Tables 1.10, 2.8, 11.14, 13.8 and 16.6: what reset leaves. No job runs, no half answers,
nothing is counted; each row has its slate in column 4 (R13); memory lists no byte. The model's own readings in it:
log entry 2. -/
def Obligations.ResetLeavesEveryDefault : Prop :=
  State.reset.tick.cfg.period = 1000 ∧ State.reset.tick.cfg.source = 0 ∧ State.reset.tick.cfg.beaconIn = 0xFF ∧
  State.reset.tick.cfg.ride = 0 ∧ State.reset.tick.cfg.holdLim = 1 ∧ State.reset.tick.cfg.voteWait = 0 ∧
  State.reset.tick.count = 0 ∧ State.reset.tick.seq = 0 ∧ State.reset.tick.committed = 0 ∧
  State.reset.job.state = .none ∧ State.reset.job.plan = none ∧ State.reset.dict.owner = none ∧
  State.reset.crown.holder = none ∧ State.reset.su.ready = 0 ∧ State.reset.flt.log = [] ∧
  State.reset.power.limitMode = 2 ∧ State.reset.power.coreLimit = 400 ∧ State.reset.power.sramLimit = 60 ∧
  State.reset.can.heartbeat = 100 ∧ State.reset.fab.laneFloor = 4 ∧ State.reset.fab.markThr = 32 ∧
  (∀ n, n < 72 → (isSlatePos State.reset.topo n = true ↔ n % 9 = 4)) ∧
  (∀ n, n < 72 → (siteAt State.reset n).state = (if n % 9 = 4 then .slateIdle else .running)) ∧
  (∀ k, clusterHeld State.reset k = false) ∧ State.reset.mem.cells = [] ∧ State.reset.pending = []

/-- The memory that reset leaves is in canonical form. The model's own readings in it: log entry 10. -/
def Obligations.ResetMemoryIsCanonical : Prop := State.reset.mem.wf = true

/-- Every step keeps memory in its canonical form: the bytes of both banks are listed at strictly rising addresses, so
that equal memories are equal data. It holds from every state in canonical form, reached by a run or not. The model's
own readings in it: log entry 10. -/
def Obligations.EveryStepKeepsMemoryCanonical : Prop :=
  ∀ s t : State, s.mem.wf = true → step s = .next t → t.mem.wf = true

/-- 17 R442: fuses never fall: no command lowers a maltster's minimum security version, and none changes another fuse.
No command takes back a message that was sent, and none touches the commands that wait. The model's own readings in
it: log entry 66. -/
def Obligations.FusesNeverFallAndMessagesStay : Prop :=
  ∀ (c : Instr) (s t : State), exec c s = .next t →
    s.fuse.minSvnNorth ≤ t.fuse.minSvnNorth ∧ s.fuse.minSvnSouth ≤ t.fuse.minSvnSouth ∧
    t.fuse = { s.fuse with minSvnNorth := t.fuse.minSvnNorth, minSvnSouth := t.fuse.minSvnSouth } ∧
    (∃ l, t.out.sdo = s.out.sdo ++ l) ∧ (∃ l, t.out.can = s.out.can ++ l) ∧ (∃ l, t.out.fab = s.out.fab ++ l) ∧
    (∃ l, t.out.udp = s.out.udp ++ l) ∧ t.pending = s.pending

/-- 15 R398: the module turns every fault into state, so every command of the table completes in every state. The
model's own readings in it: log entry 5. -/
def Obligations.EveryCommandCompletes : Prop := ∀ (c : Instr) (s : State), ∃ t, exec c s = .next t

/-- 02 R52: in ride-through mode a write to a carry line goes to the bank that is not committed and marks the line
pending, reads of the frame still return the committed bank, commit turns the pending lines over, and abandonment
leaves every committed bank. Outside carry a write is in place at once. The model's own readings in it: log entries
11, 12. -/
def Obligations.CarryWritesWaitForTheCommit : Prop :=
  (∀ (s : State) (a : Nat) (b : Byte),
    rideThrough s = true → jobHeld s = true → (regionOf s a).isSome = true →
    (∀ x, x / 64 = memKey s a / 64 → tfind s.mem.written x = none) →
    (∀ x, readByte (writeByte s a b) x = readByte s x) ∧ latestByte (writeByte s a b) a = b ∧
    (∀ x, memKey s x ≠ memKey s a → latestByte (writeByte s a b) x = latestByte s x) ∧
    (writeByte s a b).mem.pending.contains (memKey s a / 64) = true ∧
    (∀ l, l ≠ memKey s a / 64 → (writeByte s a b).mem.pending.contains l = s.mem.pending.contains l)) ∧
  (∀ (s : State) (a : Nat) (b : Byte),
    ¬ (rideThrough s = true ∧ jobHeld s = true ∧ (regionOf s a).isSome = true) →
    s.mem.darkIn.contains (memKey s a / 64) = false →
    (tfind s.mem.written (memKey s a) = none ∨ (memKey s a < padBase ∧ (regionOf s a).isNone = true)) →
    readByte (writeByte s a b) a = b ∧
    ∀ x, memKey s x ≠ memKey s a → readByte (writeByte s a b) x = readByte s x) ∧
  (∀ (s : State) (a : Nat),
    readByte { s with mem := commitMarks s.mem } a = latestByte s a ∧
    latestByte { s with mem := commitMarks s.mem } a = latestByte s a ∧
    readByte { s with mem := clearMarks s.mem } a = readByte s a ∧
    latestByte { s with mem := clearMarks s.mem } a = readByte s a)

/-- 08 R239: the columns of the 72 bits are as the rule gives them, and check bit j of a word is the exclusive OR of
the data bits whose column has bit j set. A received word whose syndrome is 0 is taken as it is; one whose syndrome is
the column of a bit has that bit flipped back; every other, and so every non-zero syndrome with an even number of bits
set, is uncorrectable. So no error, one flipped bit and two flipped bits are told apart; the rule's example holds. -/
def Obligations.TheCodeCorrectsOneBitAndDetectsTwo : Prop :=
  let col (i : Nat) : Nat := columns.getD i 0
  let ones (v : Nat) : Nat := ((List.range 8).filter (fun i => bitAt v i)).length
  (columns.length = 72 ∧ (∀ j, j < 8 → col (64 + j) = 2 ^ j) ∧ (∀ i, i < 56 → col i < 256 ∧ ones (col i) = 3) ∧
    (∀ i, i < 55 → col i < col (i + 1)) ∧
    (columns.drop 56).take 8 = [0xF8, 0xF1, 0xE3, 0xC7, 0x8F, 0x1F, 0x3E, 0x7C]) ∧
  (∀ (d : DWord) (j : Nat), j < 8 → (checkByte d).getLsbD j =
    decide (((List.range 64).filter (fun i => d.getLsbD i && bitAt (col i) j)).length % 2 = 1)) ∧
  (∀ w : BitVec 72,
    let d := w.extractLsb' 0 64
    let syn := (w.extractLsb' 64 8 ^^^ checkByte d).toNat
    (syn = 0 → checkCodeword w = .good d) ∧
    (∀ i, i < 72 → syn = col i → checkCodeword w = .corrected ((w ^^^ BitVec.ofNat 72 (2 ^ i)).extractLsb' 0 64)) ∧
    (syn ≠ 0 → (∀ i, i < 72 → syn ≠ col i) → checkCodeword w = .bad) ∧
    (syn ≠ 0 → ones syn % 2 = 0 → checkCodeword w = .bad)) ∧
  (∀ d : DWord, checkCodeword (codeword d) = .good d ∧
    (∀ i, i < 72 → checkCodeword (codeword d ^^^ BitVec.ofNat 72 (2 ^ i)) = .corrected d) ∧
    (∀ i j, i < j → j < 72 →
      checkCodeword (codeword d ^^^ BitVec.ofNat 72 (2 ^ i) ^^^ BitVec.ofNat 72 (2 ^ j)) = .bad)) ∧
  checkByte 0x40800000 = 0x28

/-! ## The sequencer (04) -/

/-- 04 R95, Tables 4.4 and 4.5: NOP only moves on; SETI writes IMM; ADDI adds IMM modulo 2^32; a write to I0 has no
effect; every other register, task, object and field stays. -/
def Obligations.SequencerRegisterWordsWriteTheirRegisterAlone : Prop :=
  ∀ (k : ClusterId) (s : State) (w : IWord), (clusterAt s k.val).cur.idx.length = 7 →
    let c := clusterAt s k.val
    (Claim.SeqWord s k.val 0 w → ∃ t, exec (.nop k) s = .next t ∧ Claim.SeqFrame s t k.val w ∧ Claim.SeqRest s t k.val ∧
      (clusterAt t k.val).cur = { c.cur with pc := c.cur.pc + 1 }) ∧
    (Claim.SeqWord s k.val 1 w → ∃ t, exec (.seti k) s = .next t ∧ Claim.SeqFrame s t k.val w ∧ Claim.SeqRest s t k.val ∧
      (clusterAt t k.val).cur = { c.cur with pc := c.cur.pc + 1, idx := (clusterAt t k.val).cur.idx } ∧
      ∀ r, r < 8 → curReg t k.val r =
        if r = seqReg w ∧ r ≠ 0 then BitVec.ofNat 32 (fld w 64 32) else curReg s k.val r) ∧
    (Claim.SeqWord s k.val 2 w → ∃ t, exec (.addi k) s = .next t ∧ Claim.SeqFrame s t k.val w ∧ Claim.SeqRest s t k.val ∧
      (clusterAt t k.val).cur = { c.cur with pc := c.cur.pc + 1, idx := (clusterAt t k.val).cur.idx } ∧
      ∀ r, r < 8 → curReg t k.val r =
        if r = seqReg w ∧ r ≠ 0 then curReg s k.val r + BitVec.ofNat 32 (fld w 64 32) else curReg s k.val r)

/-- 04 R95, R96, Table 4.6: BR, LOOP and TESTF continue at TARGET where their condition holds and TARGET lies in the
stream, else at the next word, wherever TARGET lies; LOOP lowers its register by 1 modulo 2^32. A taken branch to a
word at or above (LENGTH - 1) x 4 is a stream fault: fault 0Eh is recorded with the stream fault word (code 05h, the
sequencer, the branch's PC), and the job ends by fault without a commit. The model's own readings in it: log entries
18, 20. -/
def Obligations.BranchesContinueAtTargetOrNextWordOrEndTheJob : Prop :=
  ∀ (k : ClusterId) (s : State) (w : IWord), (clusterAt s k.val).cur.idx.length = 7 →
    let c := clusterAt s k.val
    let inside := seqTarget w < streamWords c.cur.entry
    let v := curReg s k.val (seqReg w)
    (Claim.SeqWord s k.val 3 w → (Claim.Taken (fld w 44 3) v → inside) →
      ∃ t, exec (.br k) s = .next t ∧ Claim.SeqFrame s t k.val w ∧ Claim.SeqRest s t k.val ∧
      (Claim.Taken (fld w 44 3) v → (clusterAt t k.val).cur = { c.cur with pc := seqTarget w }) ∧
      (¬ Claim.Taken (fld w 44 3) v → (clusterAt t k.val).cur = { c.cur with pc := c.cur.pc + 1 })) ∧
    (Claim.SeqWord s k.val 4 w → (seqReg w ≠ 0 → v ≠ 1 → inside) →
      ∃ t, exec (.loop k) s = .next t ∧ Claim.SeqFrame s t k.val w ∧ Claim.SeqRest s t k.val ∧
      (∀ r, r < 8 → curReg t k.val r =
        if r = seqReg w ∧ r ≠ 0 then curReg s k.val r - 1 else curReg s k.val r) ∧
      (clusterAt t k.val).cur = { c.cur with
        pc := if curReg t k.val (seqReg w) ≠ 0 then seqTarget w else c.cur.pc + 1
        idx := (clusterAt t k.val).cur.idx }) ∧
    (Claim.SeqWord s k.val 5 w → c.idle = true → (c.cur.tflags &&& BitVec.ofNat 16 (fld w 96 5) ≠ 0 → inside) →
      ∃ t, exec (.testf k) s = .next t ∧ Claim.SeqFrame s t k.val w ∧ Claim.SeqRest s t k.val ∧
        (clusterAt t k.val).cur = { c.cur with
          pc := if c.cur.tflags &&& BitVec.ofNat 16 (fld w 96 5) ≠ 0 then seqTarget w else c.cur.pc + 1 }) ∧
    (¬ inside →
      (Claim.SeqWord s k.val 3 w → Claim.Taken (fld w 44 3) v →
        ∃ t, exec (.br k) s = .next t ∧ Claim.StreamFaultEnds s t k.val 5 15 (Claim.pcOf s k.val)) ∧
      (Claim.SeqWord s k.val 4 w → seqReg w ≠ 0 → v ≠ 1 →
        ∃ t, exec (.loop k) s = .next t ∧ Claim.StreamFaultEnds s t k.val 5 15 (Claim.pcOf s k.val)) ∧
      (Claim.SeqWord s k.val 5 w → c.idle = true → c.cur.tflags &&& BitVec.ofNat 16 (fld w 96 5) ≠ 0 →
        ∃ t, exec (.testf k) s = .next t ∧ Claim.StreamFaultEnds s t k.val 5 15 (Claim.pcOf s k.val)))

/-- 04 R97, R107: CLRF clears the bits of MASK in TFLAGS and leaves the cluster's flags; BOIL posts the hint of its
word and changes no register. -/
def Obligations.ClrfClearsTflagsAndBoilPosts : Prop :=
  ∀ (k : ClusterId) (s : State) (w : IWord),
    let c := clusterAt s k.val
    (Claim.SeqWord s k.val 6 w → ∃ t, exec (.clrf k) s = .next t ∧ Claim.SeqFrame s t k.val w ∧ Claim.SeqRest s t k.val ∧
      (clusterAt t k.val).cur = { c.cur with pc := c.cur.pc + 1, tflags := (clusterAt t k.val).cur.tflags } ∧
      ∀ i, i < 16 → (clusterAt t k.val).cur.tflags.getLsbD i =
        (c.cur.tflags.getLsbD i && !(decide (i < 5) && bitFld w (96 + i)))) ∧
    (Claim.SeqWord s k.val 7 w → ∃ t, exec (.boil k) s = .next t ∧ Claim.SeqFrame s t k.val w ∧
      (clusterAt t k.val).cur = { c.cur with pc := c.cur.pc + 1 } ∧
      clusterAt t k.val = { c with
        tasks := (clusterAt t k.val).tasks, sync := (clusterAt t k.val).sync, engines := (clusterAt t k.val).engines
        seqWait := (clusterAt t k.val).seqWait, seqMet := (clusterAt t k.val).seqMet
        boilPost := some { ahead := fld w 64 8, span := fld w 72 8, level := fld w 80 4, mask := fld w 84 5
                           left := fld w 72 8 } })

/-- 04 R91, R92, R98: a legal engine word enters the back of its engine's queue with its extension word, the index
registers read at issue, its task and its PC; the PC moves past it. No other task or part of the state changes. Behind
an earlier word, or without a wait, no object and no other engine changes either; at the head of an empty queue its
wait begins: it is judged on its object behind the earlier waiters, and with none and units enough it is met and takes
them (09 R246). The model's own readings in it: log entry 16. -/
def Obligations.EngineWordsEnterTheirQueue : Prop :=
  ∀ (k : ClusterId) (s : State) (ext : Option IWord) (w : IWord) (pc : Nat),
    let c := clusterAt s k.val
    let e := wEngine w
    Claim.EngineWord s k.val ext w pc → issueCode k.val c ext w = 0 →
    (wBarrier w = true → c.idle = true) → (c.engine e).queue.length < 16 →
    ∃ t, exec (.engineWordIssue k) s = .next t ∧ Claim.OnlyCluster s t k.val ∧
      ((clusterAt t k.val).engine e).queue = (c.engine e).queue ++
        [{ ext := ext, word := w, task := c.resident, pc := pc, idx := c.cur.idx }] ∧
      ((clusterAt t k.val).engine e).flight = (c.engine e).flight ∧
      ((clusterAt t k.val).engine e).slots = (c.engine e).slots ∧
      (∀ d, d ≠ e → Claim.SameButMet s t k.val d) ∧
      (clusterAt t k.val).cur = { c.cur with pc := pc + 1 } ∧
      (∀ n, n ≠ c.resident → (clusterAt t k.val).task n = c.task n) ∧
      ((c.engine e).queue ≠ [] ∨ wWaitObj w = noObj → (clusterAt t k.val).sync = c.sync ∧
        ∀ d, d ≠ e → (clusterAt t k.val).engine d = c.engine d) ∧
      ((c.engine e).queue = [] → wWaitObj w ≠ noObj →
        (∀ j, j ≠ wWaitObj w → (clusterAt t k.val).syncObj j = c.syncObj j) ∧
        (clusterAt t k.val).syncObj (wWaitObj w) = (beginWait c e (wWaitObj w) (wWaitN w)).syncObj (wWaitObj w) ∧
        ((c.syncObj (wWaitObj w)).waiters = [] → wWaitN w ≤ (c.syncObj (wWaitObj w)).value.toNat →
          ((clusterAt t k.val).engine e).met = true ∧ ((clusterAt t k.val).syncObj (wWaitObj w)).waiters = [] ∧
          ((clusterAt t k.val).syncObj (wWaitObj w)).value.toNat = (c.syncObj (wWaitObj w)).value.toNat - wWaitN w)) ∧
      clusterAt t k.val = { c with tasks := (clusterAt t k.val).tasks, engines := (clusterAt t k.val).engines
                                   sync := (clusterAt t k.val).sync, seqMet := (clusterAt t k.val).seqMet }

/-- 04 R98, R116, R450: a word that a check refuses is a stream fault with that check's code, named by the word's
engine and PC, and the job ends by fault. 04 R111: a YIELD whose step 1 has not ended within 65,536 cycles is stream
fault 08h. 01 R27, 15 Tables 15.2 and 15.8: an engine instruction whose range the job may not access has no effect but
to start; the address and its kind stand in the cluster's address-fault object until the job's end, and fault 0Fh ends
the job. Stated for FLOAD and GLOAD. The model's own readings in it: log entries 6, 18, 21. -/
def Obligations.StreamFaultsAndInaccessibleRangesEndTheJob : Prop :=
  (∀ (k : ClusterId) (s : State) (ext : Option IWord) (w : IWord) (pc : Nat),
     Claim.EngineWord s k.val ext w pc → issueCode k.val (clusterAt s k.val) ext w ≠ 0 →
     ∃ t, exec (.engineWordIssue k) s = .next t ∧
       Claim.StreamFaultEnds s t k.val (issueCode k.val (clusterAt s k.val) ext w) (wEngine w) pc) ∧
  (∀ (k : ClusterId) (s : State),
     let c := clusterAt s k.val
     switching s k.val = true → c.switchKind = 0 → stepOneDone c = false →
     ∃ t, exec (.taskSwitchTimeout k) s = .next t ∧ Claim.StreamFaultEnds s t k.val 8 15 (c.cur.pc - 1)) ∧
  (∀ (k : ClusterId) (s : State) (q : QInstr) (g : Bool) (fe : FSel) (ge : GSel) (a : Nat),
     let e := if g then engineCode (.g ge) else engineCode (.f fe)
     let tile := padAddr k.val (lineAt q 40)
     Claim.Starts s k.val e 2 q → mayStartSlot g s k.val e q = true →
     firstFault s [{ addr := tile, len := tileBytes (fmtFld q.word 64) 4, write := false }] = some (a, false) →
     ∃ t, exec (if g then .gload k ge else .fload k fe) s = .next t ∧
       t.flt.log = lastOf 256 (s.flt.log ++ [faultRecord s.tick.count 0x0F 4 3 (unitNumber (clusterUnit s k.val)) e
         (k.val % 8) (a / 64 % 2 ^ 32)]) ∧
       t.job.endReason = 3 ∧ t.job.endFault = 0x0F ∧
       t.mem.cells = (if rideThrough s = true then s.mem.cells else (dropCopies s.mem).cells) ∧ t.tick.committed = s.tick.committed ∧
       (t.job.state = .ending ∨ t.job.state = .none))

/-- 04 R109: at YIELD the next resident task is the first ready task after the current one in rising number, wrapping
round from 3 to 0; with no other task ready YIELD does nothing but move on. -/
def Obligations.YieldOffersASwitchToTheNextReadyTask : Prop :=
  ∀ (k : ClusterId) (s : State) (w : IWord),
    let c := clusterAt s k.val
    Claim.SeqWord s k.val 8 w →
    ∃ t, exec (.yield k) s = .next t ∧ Claim.SeqFrame s t k.val w ∧
      (clusterAt t k.val).cur = { c.cur with pc := c.cur.pc + 1 } ∧
      (Claim.NoNextTask c → Claim.SeqRest s t k.val) ∧
      (∀ n, Claim.NextTask c n → clusterAt t k.val = { c with
        tasks := (clusterAt t k.val).tasks, sync := (clusterAt t k.val).sync, engines := (clusterAt t k.val).engines
        seqWait := (clusterAt t k.val).seqWait, seqMet := (clusterAt t k.val).seqMet
        seq := .switching, switchTo := some n, switchKind := 0 })

/-- 04 R103: FEND and HALT, once every earlier instruction is complete and every bulk write acknowledged, write the
state line with NEXT_PC, HALT, TFLAGS and I1 to I7, mark the task, and switch to the next ready task or stop issuing.
A FEND whose TMODE is 0 names the next word, with TMODE 1 TARGET (within the stream); HALT names its own PC. What is
written to memory is stated for a cluster with no backward descriptor. A carry line goes on its way to its backing
copies, which can be reached here. The model's own readings in it: log entry 20. -/
def Obligations.FrameEndWritesTheStateLineAndMarksTheTask : Prop :=
  ∀ (k : ClusterId) (s : State) (w : IWord) (halt : Bool),
    let c := clusterAt s k.val
    let next := if halt then c.cur.pc else if bitFld w 84 then seqTarget w else c.cur.pc + 1
    Claim.SeqWord s k.val (if halt then 10 else 9) w → c.quiet = true → mashMoving c = false → Claim.CarryFlows s k.val →
    (halt = false → bitFld w 84 = true → seqTarget w < streamWords c.cur.entry) →
    ∃ t, exec (if halt then .halt k else .fend k) s = .next t ∧
      Claim.InsidePad s t k.val ∧
      (∀ n, n ≠ c.resident → (clusterAt t k.val).task n = c.task n) ∧
      (clusterAt t k.val).cur = { c.cur with pc := next, frameDone := true, halted := halt } ∧
      (∀ n, Claim.NextTask c n → (clusterAt t k.val).seq = .switching ∧ (clusterAt t k.val).switchTo = some n ∧
        (clusterAt t k.val).switchKind = if halt then 2 else 1) ∧
      (Claim.NoNextTask c → (clusterAt t k.val).seq = .allDone ∨ (clusterAt t k.val).seq = .allHalted) ∧
      (c.cur.back = none → (c.task 0).back = none →
        t.mem = (writeBytes s (padAddr k.val c.cur.entry.baseLine) (stateLine next halt c.cur.tflags c.cur.idx)).mem)

/-- 04 R110, Table 4.11: a task switch whose step 1 has ended saves what steps 2 and 3 name, makes the incoming task
resident, counts the switch and resumes issue; a task that has not run in the frame starts with every slot and tile
register empty and its own PC. The inbox is empty here; its signals are the sync statements'. The model's own readings
in it: log entry 17. -/
def Obligations.TaskSwitchMakesTheIncomingTaskResident : Prop :=
  ∀ (k : ClusterId) (s : State) (n : Nat),
    let c := clusterAt s k.val
    switching s k.val = true → stepOneDone c = true → c.switchTo = some n → c.hasTask n = true → c.inbox = [] →
    ∃ t, exec (.taskSwitch k) s = .next t ∧
      t = { s with clusters := t.clusters, mem := t.mem } ∧ (∀ j, j ≠ k.val → clusterAt t j = clusterAt s j) ∧
      (clusterAt t k.val).resident = n ∧ (clusterAt t k.val).seq = .issuing ∧ (clusterAt t k.val).switchTo = none ∧
      (clusterAt t k.val).switches = c.switches + 1 ∧ (clusterAt t k.val).cur.ran = true ∧
      (∀ m, m ≠ n → (clusterAt t k.val).task m = c.task m) ∧
      (c.switchKind = 2 → t.mem = s.mem) ∧
      (c.switchKind = 1 → t.mem = (saveHeader s k.val).mem) ∧
      ((c.task n).ran = false → (clusterAt t k.val).cur = { c.task n with ran := true } ∧
        ∀ e, e < 8 → ((clusterAt t k.val).engine e).slots = [] ∧ ((clusterAt t k.val).engine e).tiles = []) ∧
      (∀ e, ((clusterAt t k.val).engine e).queue = (c.engine e).queue)

/-! ## The engines (05 to 08) -/

/-- 05 R136, 06 R174, R180, 07 Table 7.1, 08 Table 8.2: a no-op starts and does nothing else: no slot, tile, buffer,
flag, task or byte changes. The U-unit starts one instruction at a time, a mover once its reads are back. The model's
own readings in it: log entry 6. -/
def Obligations.EngineNopsOnlyStart : Prop :=
  ∀ (k : ClusterId) (s : State) (q : QInstr),
    let quietly := fun (c : Instr) (e : Nat) => ∃ t, exec c s = .next t ∧ Claim.StartedInside s t k.val e q ∧
      Claim.SameEngine s t k.val e ∧ Claim.FlagsOnly s t k.val q.task 0
    (∀ e, Claim.Starts s k.val (engineCode (.f e)) 0 q → quietly (.fnop k e) (engineCode (.f e))) ∧
    (∀ e, Claim.Starts s k.val (engineCode (.g e)) 0 q → quietly (.gnop k e) (engineCode (.g e))) ∧
    (∀ e, Claim.Starts s k.val (engineCode (.v e)) 0 q → quietly (.vnop k e) (engineCode (.v e))) ∧
    (Claim.Starts s k.val 8 0 q → (engineAt s k.val 8).flight = [] → quietly (.unop k) 8) ∧
    (∀ e, Claim.Starts s k.val (engineCode (.m e)) 0 q → moverFree s k.val (engineCode (.m e)) = true →
      quietly (.mnop k e) (engineCode (.m e)))

/-- 05 R118, R119, R130, 06 R153, R156, R157: FMM and GMM leave in the pair of PE (i, j) the sum over increasing k of
A(i, k) x B(j, k), added to +0 where the group opens, else to the slot's pair; a product with a zero element leaves
the pair as it is, unless an infinity or a NaN shares its cycle (R143). Only the active bands are read (R121). Every
other slot, every byte of memory and every other cluster stays. The model's own readings in it: log entries 6, 72. -/
def Obligations.MatrixProductsAccumulateEachPair : Prop :=
  ∀ (k : ClusterId) (s : State) (q : QInstr) (g : Bool) (fe : FSel) (ge : GSel),
    let e := if g then engineCode (.g ge) else engineCode (.f fe)
    let a := Claim.operandA g s k.val q
    let b := Claim.operandB g s k.val q
    Claim.Starts s k.val e 1 q → Claim.Accessible s (Claim.productDescs g k.val q) →
    startFormatOk (g && bitFld q.word 120) (g && bitFld q.word 121) a b = true →
    Claim.Accessible s (Claim.productRanges g s k.val e q) →
    mayStartProduct g s k.val e q = true →
    (Claim.startPairs s k.val e (fld q.word 104 3) (fld q.word 112 2 == 1)).length = 16384 →
    ∃ t, exec (if g then .gmm k ge else .fmm k fe) s = .next t ∧ Claim.Multiplies g s t k.val e q

/-- 05 R132, R135, 06 R174, R175: FLOAD and GLOAD open a group with the pairs of a tile, a NaN as the canonical NaN
with C at +0; FCLEAR and GCLEAR free the slot; GMERGE merges a tile into the slot under 03 R81, pair by pair. 06 R181
to R185: UAPPLY updates every element of a tile by its rule from GS x g, the master, m and v, and writes the master in
FP32, m (and v of the adaptive rule) in BF16 and the working copies, where every g is finite; with any g not finite it
writes nothing and counts a skipped tile. UCAST writes the working copies alone. The model's own readings in it: log
entry 6. -/
def Obligations.LoadsClearsMergesAndUpdatesActOnTheirSlotAndTile : Prop :=
  (∀ (k : ClusterId) (s : State) (q : QInstr) (g : Bool) (fe : FSel) (ge : GSel),
     let e := if g then engineCode (.g ge) else engineCode (.f fe)
     let w := q.word
     let tile := padAddr k.val (lineAt q 40)
     let ps := tilePairs s (fmtFld w 64) tile
     (Claim.Starts s k.val e 2 q → mayStartSlot g s k.val e q = true →
       Claim.Accessible s [{ addr := tile, len := tileBytes (fmtFld w 64) 4, write := false }] →
       ∃ t, exec (if g then .gload k ge else .fload k fe) s = .next t ∧ Claim.StartedInside s t k.val e q ∧
         Claim.SlotHolds s t k.val e (fld w 68 3) (fld w 72 3)
           (ps.map (fun p => if (val32 (pairS p)).isNan then mkPair nan32 0 else p)) ∧
         Claim.FlagsOnly s t k.val q.task (pairsNan ps)) ∧
     (Claim.Starts s k.val e 4 q → mayStartSlot g s k.val e q = true →
       ∃ t, exec (if g then .gclear k ge else .fclear k fe) s = .next t ∧ Claim.StartedInside s t k.val e q ∧
         Claim.SlotFreed s t k.val e (fld w 68 3) ∧ Claim.FlagsOnly s t k.val q.task 0) ∧
     (Claim.Starts s k.val (engineCode (.g ge)) 5 q → mayStartSlot true s k.val (engineCode (.g ge)) q = true →
       Claim.Accessible s ({ addr := tile, len := tileBytes (fmtFld w 64) 4, write := false } ::
         (if bitFld w 75 then [] else [slotRange k.val (engineCode (.g ge)) (fld w 68 3)])) →
       ∃ t f, exec (.gmerge k ge) s = .next t ∧ Claim.StartedInside s t k.val (engineCode (.g ge)) q ∧
         Claim.SlotHolds s t k.val (engineCode (.g ge)) (fld w 68 3) (fld w 72 3)
           (List.zipWith (fun x y => (mergePair x y).1)
             (Claim.startPairs s k.val (engineCode (.g ge)) (fld w 68 3) (bitFld w 75)) ps) ∧
         Claim.FlagsOnly s t k.val q.task f)) ∧
  (∀ (k : ClusterId) (s : State) (q : QInstr),
     let w := q.word
     let wm := padAddr k.val (lineAt q 40)
     let st := padAddr k.val (lineAt q 64)
     let p := readParams (readBytes s (padAddr k.val (lineAt q 88)) 64)
     let g := (gradientRows s k.val q).map (fun r => r.map (fun x => (mul32 p.gs x).1))
     let finite := ∀ r ∈ g, ∀ x ∈ r, (val32 x).isFin = true
     let rule := fld w 112 2
     let el := fun i j : Nat => updateElem rule p ((g.getD i []).getD j 0)
       (((wordRows s 0#4 wm).getD i []).getD j 0) (((wordRows s 1#4 st).getD i []).getD j 0)
       (if rule = 1 then ((wordRows s 1#4 (st + 32768)).getD i []).getD j 0 else 0)
     let tile := fun f : Updated → Word =>
       (List.range 128).map (fun i => (List.range 128).map (fun j => wordVal (f (el i j))))
     let writes := (packTile 0#4 (tile Updated.w) wm 0 3 3).1 ++ (packTile 1#4 (tile Updated.m) st 0 3 3).1 ++
       (if rule = 1 then (packTile 1#4 (tile Updated.v) (st + 32768) 0 3 3).1 else []) ++
       (copyWrites k.val q ((List.range 128).map (fun i => (List.range 128).map (fun j => (el i j).w)))).1
     let casts := (copyWrites k.val q (wordRows s 0#4 wm)).1
     ((engineAt s k.val 8).flight = [] → Claim.Starts s k.val 8 1 q → Claim.CarryFlows s k.val →
       (bitFld w 124 = true ∨ ((engineAt s k.val (fld w 114 4)).slice).isSome = true) →
       Claim.Accessible s (updateRanges k.val q) →
       ∃ t, exec (.uapply k) s = .next t ∧ Claim.InsidePad s t k.val ∧ Claim.Started s t k.val 8 q ∧
         (finite → t.mem = (padWrites s k.val writes).mem ∧
           (clusterAt t k.val).updated = (clusterAt s k.val).updated + 1 ∧
           (clusterAt t k.val).skipped = (clusterAt s k.val).skipped) ∧
         (¬ finite → t.mem = s.mem ∧ (clusterAt t k.val).skipped = (clusterAt s k.val).skipped + 1 ∧
           (clusterAt t k.val).updated = (clusterAt s k.val).updated)) ∧
     ((engineAt s k.val 8).flight = [] → Claim.Starts s k.val 8 2 q → Claim.CarryFlows s k.val →
       Claim.Accessible s ({ addr := wm, len := 65536, write := false } :: writeRanges casts) →
       ∃ t, exec (.ucast k) s = .next t ∧ Claim.InsidePad s t k.val ∧ Claim.Started s t k.val 8 q ∧
         t.mem = (padWrites s k.val casts).mem))

/-- 05 R133, R134, 06 R162, R167, R168: a drain whose tile and mash entry are accessible writes its output (and its
turned twin), pushes the drained pairs where MASH is set, pops an entry where its function is a derivative, and frees
its slot; GDRAIN with DEST 1 fills the slice buffer with the FP32 rounding of the tile in BF16 and writes no byte. It
starts once every earlier instruction that names its slot is complete (05 R140). The model's own readings in it: log
entries 6, 22. -/
def Obligations.DrainsWriteTheirTileAndFreeTheSlot : Prop :=
  ∀ (k : ClusterId) (s : State) (q : QInstr) (g : Bool) (fe : FSel) (ge : GSel),
    let e := if g then engineCode (.g ge) else engineCode (.f fe)
    let cmd := if g then Instr.gdrain k ge else Instr.fdrain k fe
    let d := drainOf g (clusterAt s k.val) q (if g then gLane q else fLane fe)
    Claim.Starts s k.val e 3 q → mayStartSlot g s k.val e q = true → drainReady s k.val e q d = true →
    Claim.CarryFlows s k.val →
    (d.mash = true ∨ isDeriv d.func = true → ∀ m, taskMash s k.val q.task = some m → Claim.SpillFlows s k.val d.lane m) →
    (d.dest = false → mashFault (taskMash s k.val q.task) d.lane d.mash (isDeriv d.func) = none →
      Claim.Accessible s (Claim.drainRanges s k.val e q d (Claim.drainOutput s k.val e q d)) →
      ∃ t, exec cmd s = .next t ∧ Claim.InsidePad s t k.val ∧ Claim.Started s t k.val e q ∧
        Claim.SlotFreed s t k.val e d.slot ∧
        (d.mash = false → t.mem = (padWrites s k.val (Claim.drainOutput s k.val e q d)).mem) ∧
        (∀ m, taskMash s k.val q.task = some m → d.mash = true → isDeriv d.func = false →
          Claim.SameBanks t.mem (padWrites (padWrites s k.val (Claim.pushWrites k.val m d.lane
            (bandRows (pushRows g (Claim.drainPairs s k.val e d)) d.rowb d.colb))) k.val
            (Claim.drainOutput s k.val e q d)).mem) ∧
        (∀ m, taskMash s k.val q.task = some m → (clusterAt s k.val).hasTask q.task = true →
          ∃ m', taskMash t k.val q.task = some m' ∧ m'.depth d.lane =
            m.depth d.lane + (if d.mash then 1 else 0) - (if isDeriv d.func then 1 else 0)) ∧
        (∀ l, l ≠ d.lid ∨ d.grist = false → gristAt (clusterAt t k.val) l = gristAt (clusterAt s k.val) l)) ∧
    (d.dest = true → Claim.Accessible s [slotRange k.val e d.slot] → ∃ t f, exec cmd s = .next t ∧ Claim.StartedInside s t k.val e q ∧
      Claim.SlotFreed s t k.val e d.slot ∧
      (engineAt t k.val e).slice = some ((slotPairs (engineAt s k.val e) d.slot).map
        (fun p => BitVec.ofNat 16 (Elem.bf16.encode false (val32 (round32 (pairVal p)).1)).1)) ∧
      Claim.FlagsOnly s t k.val q.task f)

/-- 06 R162, R163, R177, R178: GMPUSH puts a tile on top of its lane (DEPTH rises by 1, the entry is written at its
ring slot in MFMT), GMPOP writes func of the top entry and takes it off unless PEEK is set; a spill that crosses the
panel stands in its home, and in the partner's copy where the home is carry, and raises LO by 1; a prefetch that comes
back is written into its ring slot and lowers LO by 1. The model's own readings in it: log entries 6, 15. -/
def Obligations.MashEntriesMoveThroughTheirLane : Prop :=
  ∀ (k : ClusterId) (s : State) (q : QInstr) (ge : GSel) (m : Mash) (lane : Fin 2),
    let e := engineCode (.g ge)
    let w := q.word
    let tile := padAddr k.val (lineAt q 40)
    let scale := padAddr k.val (extLine q 8)
    let l := fld w 68 1
    let rows := operandRows (fmtFld w 64) (engineFetch s) tile scale 4 3
    let outs := (mashTop s k.val q.task (fld w 74 1)).map (fun r => r.map (fun v => forwardFn (fld w 68 4) (widen v)))
    let vals := outs.map (fun r => r.map (fun o => wordVal o.1))
    let packed := packTile (fmtFld w 64) (if bitFld w 73 then turned (Val.zero, Val.zero) 128 vals else vals) tile scale 3 3
    (Claim.Starts s k.val e 6 q → mayStartSlot true s k.val e q = true → Claim.CarryFlows s k.val →
      taskMash s k.val q.task = some m → Claim.SpillFlows s k.val l m → (clusterAt s k.val).hasTask q.task = true →
      mashReady (some m) l true false = true → m.depth l < m.se →
      Claim.Accessible s ([{ addr := tile, len := tileBytes (fmtFld w 64) 4, write := false },
        { addr := scale, len := scaleBytes (fmtFld w 64) 4, write := false }] ++ pushRanges k.val m l) →
      ∃ t m', exec (.gmpush k ge) s = .next t ∧ Claim.InsidePad s t k.val ∧ Claim.Started s t k.val e q ∧
        Claim.SameBanks t.mem
          (padWrites s k.val (Claim.pushWrites k.val m l (rows.map (fun r => r.map (fun v => wordVal (widen v)))))).mem ∧
        taskMash t k.val q.task = some m' ∧ m'.depth l = m.depth l + 1 ∧ m'.depth (1 - l) = m.depth (1 - l) ∧
        m'.pushes = m.pushes + 1) ∧
    (Claim.Starts s k.val e 7 q → mayStartSlot true s k.val e q = true → Claim.CarryFlows s k.val →
      taskMash s k.val q.task = some m → Claim.SpillFlows s k.val (fld w 74 1) m → (clusterAt s k.val).hasTask q.task = true →
      mashReady (some m) (fld w 74 1) false true = true → 0 < m.depth (fld w 74 1) →
      Claim.Accessible s (writeRanges packed.1 ++ popRanges k.val m (fld w 74 1)) →
      ∃ t m', exec (.gmpop k ge) s = .next t ∧ Claim.InsidePad s t k.val ∧ Claim.Started s t k.val e q ∧
        t.mem = (padWrites s k.val packed.1).mem ∧ taskMash t k.val q.task = some m' ∧
        m'.depth (fld w 74 1) = m.depth (fld w 74 1) - (if bitFld w 72 then 0 else 1) ∧
        m'.pops = m.pops + (if bitFld w 72 then 0 else 1)) ∧
    (s.tick.recovery.active = false → (clusterAt s k.val).cur.mash = some m →
      (clusterAt s k.val).hasTask (clusterAt s k.val).resident = true →
      Claim.SpillFlows s k.val lane.val m → m.lo lane.val < m.se → m.depth lane.val ≤ m.se →
      (∀ d r i p, m.outs lane.val = d :: r → transferAt s k.val d (.spill lane.val) = some (i, p) → Claim.Crosses s i p →
        Claim.Takes s p.way.dest → upsetsIn s.mem 0 (memKey s (ringAddr k.val m lane.val d)) (mashBytes m) = [] →
        let data := latestBytes s (ringAddr k.val m lane.val d) (mashBytes m)
        let home := homeAddr m lane.val d
        ∃ t m', exec (.mashSpillDone k lane) s = .next t ∧ Claim.InsidePad (Claim.travelled s p.way) t k.val ∧
          Claim.SameBanks t.mem (if rideThrough s = true ∧ (regionOf s home).isSome = true
            then writeCopy (writeBytes s home data) 1 home data else writeBytes s home data).mem ∧
          (clusterAt t k.val).cur.mash = some m' ∧ m'.lo lane.val = m.lo lane.val + 1 ∧
          m'.depth lane.val = m.depth lane.val) ∧
      (∀ d r i p hs primary, m.ins lane.val = d :: r → transferAt s k.val d (.prefetch lane.val) = some (i, p) →
        Claim.Crosses s i p → Claim.Takes s p.way.dest → Claim.CarryFlows s k.val →
        (∀ j, j < mashLines m.mfmt → upsetsIn s.mem 0 (memKey s (homeAddr m lane.val d + 64 * j)) 64 = []) →
        passage s (homeUnit s (clusterHome s k.val) (homeAddr m lane.val d)) (clusterHome s k.val) (k.val % 8) =
          .through hs primary →
        ∃ t m', exec (.mashPrefetchArrival k lane) s = .next t ∧ Claim.InsidePad (Claim.travelled s p.way) t k.val ∧
          Claim.SameBanks t.mem
            (padWrite s k.val (ringAddr k.val m lane.val d) (latestBytes s (homeAddr m lane.val d) (mashBytes m))).mem ∧
          (clusterAt t k.val).cur.mash = some m' ∧ m'.lo lane.val = m.lo lane.val - 1 ∧
          m'.depth lane.val = m.depth lane.val))

/-- 06 R188: GALT leaves in one slot D x W and in another X x D turned, each pair over increasing k onto its own
start, from one reading of D. The model's own readings in it: log entries 6, 72. -/
def Obligations.GaltFormsBothProductsFromOneReading : Prop :=
  ∀ (k : ClusterId) (s : State) (q : QInstr) (ge : GSel),
    let e := engineCode (.g ge)
    let w := q.word
    let gd := bitFld w 111
    let d := operandOf s k.val gd (fmtFld w 88) (lineAt q 40) (extLine q 36) false
    let wt := operandOf s k.val false (fmtFld w 92) (lineAt q 64) (extLine q 60) false
    let xt := operandOf s k.val false (fmtFld q.extw 32) (extLine q 8) (extLine q 84) (bitFld w 110)
    let dTurn : Operand := { fmt := d.fmt, addr := d.addr, sa := d.sa, turn := true }
    let startX := Claim.startPairs s k.val e (fld w 96 3) (bitFld w 108)
    let startW := Claim.startPairs s k.val e (fld w 102 3) (bitFld w 109)
    Claim.Starts s k.val e 8 q → mayStartProduct true s k.val e q = true → fld w 96 3 ≠ fld w 102 3 →
    Claim.Accessible s (if gd then [{ addr := padAddr k.val (extLine q 36), len := 64, write := false }] else []) →
    (startFormatOk gd false d wt && startFormatOk false false xt dTurn) = true →
    Claim.Accessible s (d.ranges 4 3 ++ wt.ranges 4 3 ++ xt.ranges 4 3 ++
      (if bitFld w 108 then [] else [slotRange k.val e (fld w 96 3)]) ++
      (if bitFld w 109 then [] else [slotRange k.val e (fld w 102 3)])) →
    startX.length = 16384 → startW.length = 16384 →
    ∃ t px pw f, exec (.galt k ge) s = .next t ∧ Claim.StartedInside s t k.val e q ∧
      tfind (engineAt t k.val e).slots (fld w 96 3) = some { group := fld w 99 3, pairs := px } ∧
      tfind (engineAt t k.val e).slots (fld w 102 3) = some { group := fld w 105 3, pairs := pw } ∧
      (∀ i, i ≠ fld w 96 3 → i ≠ fld w 102 3 →
        tfind (engineAt t k.val e).slots i = tfind (engineAt s k.val e).slots i) ∧
      Claim.ArrayHolds (gatesOf (d.rows s 4 3) (wt.rows s 4 3) 128 (d.fmt == 8#4 && wt.fmt == 8#4)) startX px
        (d.rows s 4 3) (wt.rows s 4 3) ∧
      Claim.ArrayHolds (gatesOf (xt.rows s 4 3) (dTurn.rows s 4 3) 128 (d.fmt == 8#4 && xt.fmt == 8#4)) startW pw
        (xt.rows s 4 3) (dTurn.rows s 4 3) ∧ Claim.FlagsOnly s t k.val q.task f

/-- 07 R200 to R205, Tables 7.5 and 7.6: an element operation writes its function of the operand registers to the
whole destination register and counts 4,096 elements; every other register, every byte and every other cluster stays.
It starts where no incomplete instruction of its engine bars it (07 R207). The model's own readings in it: log entries
6, 22, 72. -/
def Obligations.VectorOperationsWriteTheirRegister : Prop :=
  ∀ (k : ClusterId) (s : State) (q : QInstr) (v : VSel),
    let e := engineCode (.v v)
    let a := tileReg s k.val e (fld q.word 43 3)
    let b := if fld q.word 56 2 = 1 then List.replicate 4096 (BitVec.ofNat 32 (fld q.word 64 32))
      else tileReg s k.val e (fld q.word 46 3)
    let c := tileReg s k.val e (fld q.word 49 3)
    let lo : List Word := List.replicate 4096 (BitVec.ofNat 32 (fld q.word 64 16 * 65536))
    let hi : List Word := List.replicate 4096 (BitVec.ofNat 32 (fld q.word 80 16 * 65536))
    let both := fld q.word 56 2 = 2
    let func := fld q.word 52 4
    let writes := fun (cmd : Instr) (r : List Word) => ∃ t f, exec cmd s = .next t ∧
      Claim.StartedInside s t k.val e q ∧ tileReg t k.val e (fld q.word 40 3) = r ∧
      (∀ i, i ≠ fld q.word 40 3 → tileReg t k.val e i = tileReg s k.val e i) ∧
      (engineAt t k.val e).work = (engineAt s k.val e).work + 4096 ∧ Claim.FlagsOnly s t k.val q.task f
    vFree s k.val e q = true → Claim.Accessible s ((vReads q).map (tileRange k.val e)) →
    (Claim.Starts s k.val e 3 q → writes (.vbin k v) (List.zipWith (fun x y => (binFn func x y).1) a b)) ∧
    (Claim.Starts s k.val e 4 q → writes (.vfma k v) (if both
      then ((a.zip lo).zip hi).map (fun p => (fma32 p.1.1 p.1.2 p.2).1)
      else ((a.zip b).zip c).map (fun p => (fma32 p.1.1 p.1.2 p.2).1))) ∧
    (Claim.Starts s k.val e 5 q → writes (.vun k v) (a.map (fun x =>
      if (val32 x).isNan then nan32 else (unFn func x).1))) ∧
    (Claim.Starts s k.val e 6 q → writes (.vcmp k v) (List.zipWith (fun x y =>
      if relation func x y then 0x3F800000#32 else 0) a b)) ∧
    (Claim.Starts s k.val e 7 q → writes (.vsel k v) (((if both then lo.zip hi else a.zip b).zip c).map (fun p =>
      canonical (if (val32 p.2).isZero || (val32 p.2).isNan then p.1.2 else p.1.1)))) ∧
    (Claim.Starts s k.val e 8 q → writes (.vred k v) (if bitFld q.word 58
      then (List.range 64).flatMap (fun _ => (turned 0 64 (tileRows a)).map (fun r => (reduce func r).1))
      else (tileRows a).flatMap (fun r => List.replicate 64 (reduce func r).1))) ∧
    (Claim.Starts s k.val e 9 q →
      let vals := (tileRows a).map (fun r => r.map wordVal)
      let half := fun i : Nat => List.zipWith (fun x y => x ++ y) (readBack (BitVec.ofNat 4 func) (pieceOf vals i 0))
        (readBack (BitVec.ofNat 4 func) (pieceOf vals i 1))
      writes (.vcvt k v) ((half 0 ++ half 1).flatten.map widen))

/-- 07 R198, R199, R206: VLD widens a region into a register; VST rounds a register into a region; VLDL puts the 16
words of a line into 16 elements of one row, VSTL stores those elements whose WMASK bit is set, and no other byte. The
model's own readings in it: log entries 6, 22. -/
def Obligations.VectorLoadsAndStoresMoveTheirRegion : Prop :=
  ∀ (k : ClusterId) (s : State) (q : QInstr) (v : VSel),
    let e := engineCode (.v v)
    let line := padAddr k.val (lineAt q 40)
    let o := operandOf s k.val (vDesc q) (fmtFld q.word 64) (lineAt q 40) (extLine q 8) false
    let region := regionRows s o.fmt o.addr o.sa (vShape q) (vQuad q)
    let reg := tileReg s k.val e (vReg q)
    let stored := (regionWrites (fmtFld q.word 64) line (padAddr k.val (extLine q 8)) (vShape q) (vQuad q)
      (if vTurn q then turned 0 64 (tileRows reg) else tileRows reg)).1
    let words := (chunksOf 4 (readBytes s line 64)).map (fun b => (BitVec.ofNat 32 (leNat b) : Word))
    let spot := vSpot q
    let masked := ((reg.drop spot).take 16).zipIdx.filter (fun w => bitFld q.word (79 + w.2))
    let lineWrites := masked.map (fun w => (line + 4 * w.2, leBytes 4 (canonical w.1).toNat))
    let loads := fun (cmd : Instr) (r : List Word) => ∃ t f, exec cmd s = .next t ∧
      Claim.StartedInside s t k.val e q ∧ tileReg t k.val e (vReg q) = r ∧
      (∀ i, i ≠ vReg q → tileReg t k.val e i = tileReg s k.val e i) ∧ Claim.FlagsOnly s t k.val q.task f
    let stores := fun (cmd : Instr) (ws : List Write) => ∃ t, exec cmd s = .next t ∧ Claim.InsidePad s t k.val ∧
      Claim.Started s t k.val e q ∧ t.mem = (padWrites s k.val ws).mem ∧
      ∀ i, tileReg t k.val e i = tileReg s k.val e i
    vFree s k.val e q = true → Claim.Accessible s ((vReads q).map (tileRange k.val e)) →
    (Claim.Starts s k.val e 1 q →
      Claim.Accessible s (if vDesc q then [{ addr := padAddr k.val (extLine q 8), len := 64, write := false }] else []) →
      (vDesc q = true → descLegal o.fmt = true) →
      Claim.Accessible s (regionRanges o.fmt o.addr o.sa (vShape q) (vQuad q) false) →
      loads (.vld k v) ((if vTurn q then turned Val.zero 64 region else region).flatten.map widen)) ∧
    (Claim.Starts s k.val e 2 q → Claim.CarryFlows s k.val → Claim.Accessible s (writeRanges stored) → stores (.vst k v) stored) ∧
    (Claim.Starts s k.val e 10 q → Claim.Accessible s [{ addr := line, len := 64, write := false }] →
      loads (.vldl k v) (reg.take spot ++ words.map canonical ++ reg.drop (spot + 16))) ∧
    (Claim.Starts s k.val e 11 q → Claim.CarryFlows s k.val → Claim.Accessible s [{ addr := line, len := 64, write := true }] →
      stores (.vstl k v) lineWrites)

/-- 08 R215 to R218: MCOPY and MADD walk their lines row by row, from SRC and DST with their strides; a line whose
source lies in the mover's own chiplet goes to its destination at once: into the cluster's own scratchpad, where MADD
merges it with the old line, or as a packet of the bulk network that stays unacknowledged; any other line asks its
home for the data (stream and fresh modes). The clauses on one line are for instructions of one line, without a
circuit, whose home can be reached. The model's own readings in it: log entries 6, 39. -/
def Obligations.MoversCopyTheirLines : Prop :=
  ∀ (k : ClusterId) (s : State) (q : QInstr) (me : MSel) (merge : Bool),
    let e := engineCode (.m me)
    let w := q.word
    let x := q.extw
    let src := fld w 40 48 + 64 * (idxReg q.idx (fld w 114 3)).toNat
    let dst := fld x 8 48 + 64 * (idxReg q.idx (fld w 117 3)).toNat
    let cmd := if merge then Instr.madd k me else Instr.mcopy k me
    let here := clusterHome s k.val
    Claim.Starts s k.val e (if merge then 2 else 1) q → moverFree s k.val e = true →
    (clusterAt s k.val).wtQueue.length < 1024 →
    (exec cmd s = .next (walkLines (copyHaul merge k.val e q)
      ((List.range (fld x 64 16 + 1)).flatMap (fun r => (List.range (fld w 88 24 + 1)).map (fun l =>
        (src + 64 * (r * fld x 80 24 + l), dst + 64 * (r * fld x 104 24 + l))))) (startInstr s k.val e q 0))) ∧
    (fld x 64 16 = 0 → fld w 88 24 = 0 → fld x 56 8 = 0 → addrOk s src = true → dst < 2 ^ 48 →
      destOk s (copyHaul merge k.val e q) dst = true →
      (nearLine k.val src = true → upsetsIn s.mem 0 (memKey s src) 64 = [] →
        panelTree s dst = none → fabricTree s k.val 0 dst = none →
        ((padCluster dst = k.val ∧ padBase ≤ dst) → Claim.CarryFlows s k.val →
          (merge = true → upsetsIn s.mem 0 (memKey s dst) 64 = []) →
          ∃ t, exec cmd s = .next t ∧ Claim.InsidePad s t k.val ∧
            t.mem = (padWrite s k.val dst
              (if merge then (mergeAt s dst (readBytes s src 64)).1 else readBytes s src 64)).mem ∧
            (engineAt t k.val e).work = (engineAt s k.val e).work + 1) ∧
        (¬ (padCluster dst = k.val ∧ padBase ≤ dst) → passage s here (homeUnit s here dst) (homeLocal dst) ≠ .unreachable →
          ∃ t way, exec cmd s = .next t ∧ way.at_ = here ∧ way.dest = homeUnit s here dst ∧
            t.noc.bulk = s.noc.bulk ++ [{ kind := if merge then .merge else .write, k := k.val, e := e, task := q.task
                                          ord := (engineAt s k.val e).issued + 1, addr := dst, lines := 1
                                          data := readBytes s src 64, relay := none, way := way }] ∧
            (engineAt t k.val e).unacked = (engineAt s k.val e).unacked ++
              [((engineAt s k.val e).issued + 1, destOf 0 dst)] ∧
            t.mem.cells = s.mem.cells ∧ t.mem.dark = s.mem.dark)) ∧
      (nearLine k.val src = false → fld w 112 2 ≠ 0 → passage s here (homeUnit s here src) (homeLocal src) ≠ .unreachable →
        ∃ t way, exec cmd s = .next t ∧ way.at_ = here ∧ way.dest = homeUnit s here src ∧
          t.noc.bulk = s.noc.bulk ++ [{ kind := .readReq (BitVec.ofNat 2 (fld w 112 2)) dst 0 merge, k := k.val, e := e
                                        task := q.task, ord := 0, addr := src, lines := 1, data := [], relay := none
                                        way := way }] ∧
          t.mem = s.mem))

/-! ## Signals and packets of the panel (08 to 11) -/

/-- 09 R245, R249, R250: an MSIG to the sender's own cluster acts at once on the object it names: add and subtract
saturate, set sets; to another cluster of the module it goes on the sync network behind the signals before it; on a
circuit it leaves as a packet. With FENCE it starts only when every earlier write of its mover is acknowledged. 09
R245, R247, 10 R271 to R276: a signal whose way is open arrives: it leaves the network, acts on its object and is
counted; one for a circuit goes on from the rim die. Behind an earlier signal of its sender to its destination it
stays. The model's own readings in it: log entries 6, 39. -/
def Obligations.SignalsActOrTravelAndArriveOnce : Prop :=
  (∀ (k : ClusterId) (s : State) (q : QInstr) (me : MSel) (op : Fin 3),
     let e := engineCode (.m me)
     let cmd := if op.val = 0 then Instr.msigAdd k me else if op.val = 1 then Instr.msigSubtract k me else Instr.msigSet k me
     let g := mSignal s k.val e q none
     Claim.Starts s k.val e 3 q → mRelay q = false → mOp q = op.val → moverFree s k.val e = true →
     (wFence q.word = true → (engineAt s k.val e).unacked = []) → (clusterAt s k.val).wtQueue.length < 1024 →
     (mCirc q = 0 → signalTarget s (mDcl q) (mTask q) = true → mDcl q = k.val → Claim.LiveTarget s g →
       ∃ t, exec cmd s = .next t ∧ Claim.OnlyCluster s t k.val ∧
         Claim.Signalled ((clusterAt (startInstr s k.val e q 0) k.val).syncObj (mObj q))
           ((clusterAt t k.val).syncObj (mObj q)) op.val (mAmount q) ∧
         (∀ j, j ≠ mObj q → (clusterAt t k.val).syncObj j =
           (clusterAt (startInstr s k.val e q 0) k.val).syncObj j)) ∧
     (mCirc q = 0 → signalTarget s (mDcl q) (mTask q) = true → mDcl q ≠ k.val →
       passage s (clusterHome s k.val) ((siteBy s (clusterHome s k.val) (mDcl q / 8)).getD 0) (mDcl q % 8) ≠ .unreachable →
       ∃ t way, exec cmd s = .next t ∧ way.at_ = clusterHome s k.val ∧
         way.dest = (siteBy s (clusterHome s k.val) (mDcl q / 8)).getD 0 ∧
         t = { s with clusters := t.clusters, topo := { s.topo with sites := t.topo.sites }
                      noc := { s.noc with sync := s.noc.sync ++ [{ sig := g, leaves := none, came := none, way := way }] } } ∧
         (∀ n, siteAt t n = { siteAt s n with fallbacks := (siteAt t n).fallbacks }) ∧
         Claim.Started s t k.val e q ∧ (∀ j, j ≠ k.val → clusterAt t j = clusterAt s j)) ∧
     (mCirc q ≠ 0 → exec cmd s =
       .next (sendSignal (startInstr s k.val e q 0) g (wBarrier q.word) 0))) ∧
  (∀ (i : Nat) (s : State) (p : SyncPacket),
     let g := p.sig
     (Claim.CrossesSync s i p → g.relay = none → p.leaves = none → p.came = none → firstSignal s.noc.sync i p = true → g.op < 3 →
       Claim.Takes s p.way.dest → Claim.LiveTarget s g →
       ∃ t, exec (.syncSignalArrival i) s = .next t ∧ t.noc.sync = dropAt s.noc.sync i ∧ t.mem = s.mem ∧
         (∀ j, j ≠ g.dstK → clusterAt t j = clusterAt s j) ∧
         (clusterAt t g.dstK).remoteSig = (clusterAt s g.dstK).remoteSig + 1 ∧
         Claim.Signalled ((clusterAt s g.dstK).syncObj g.obj) ((clusterAt t g.dstK).syncObj g.obj) g.op g.amount ∧
         (∀ j, j ≠ g.obj → (clusterAt t g.dstK).syncObj j = (clusterAt s g.dstK).syncObj j)) ∧
     (∀ sp pkt, Claim.CrossesSync s i p → p.leaves = some (sp, pkt) → firstSignal s.noc.sync i p = true →
       Claim.Takes s p.way.dest →
       exec (.syncSignalArrival i) s = .next (enterRim (takeSyncPacket (Claim.travelled s p.way) i) sp pkt)) ∧
     (s.noc.sync[i]? = some p → firstSignal s.noc.sync i p = false → exec (.syncSignalArrival i) s = .next s))

/-- 09 R258 to R260: a relay sends its lines and behind them its signal under one transfer number; the signal takes
effect when every line of the transfer has arrived. The first clause is for a relay of one line from the cluster's own
scratchpad to another cluster of the module, which can be reached; its signal sets out, with one line outstanding. The
model's own readings in it: log entry 40. -/
def Obligations.RelaySignalsFollowTheirLines : Prop :=
  ∀ (k : ClusterId) (s : State) (q : QInstr) (me : MSel),
    let e := engineCode (.m me)
    let src := padAddr k.val (extLine q 8)
    let dst := padAddr (mDcl q) (extLine q 32)
    (Claim.Starts s k.val e 3 q → mRelay q = true → mMerge q = false → moverFree s k.val e = true → mCirc q = 0 →
      signalTarget s (mDcl q) (mTask q) = true → mDcl q ≠ k.val → padCluster dst = mDcl q → fld q.extw 56 12 = 0 →
      addrOk s src = true → addrOk s dst = true → inStream s dst 64 = false → nearLine k.val src = true →
      upsetsIn s.mem 0 (memKey s src) 64 = [] → (clusterAt s k.val).wtQueue.length < 1024 →
      passage s (clusterHome s k.val) ((siteBy s (clusterHome s k.val) (mDcl q / 8)).getD 0) (mDcl q % 8) ≠ .unreachable →
      ∃ t g way way', exec (.msigRelay k me) s = .next t ∧
        t.noc.sync = s.noc.sync ++ [{ sig := g, leaves := none, came := none, way := way }] ∧ g.relay = some s.noc.nextId ∧
        way.at_ = clusterHome s k.val ∧ way'.at_ = clusterHome s k.val ∧ way'.dest = way.dest ∧
        g.dstK = mDcl q ∧ g.obj = mObj q ∧ t.noc.nextId = s.noc.nextId + 1 ∧
        t.noc.relays = s.noc.relays ++ [{ id := s.noc.nextId, left := 1 }] ∧
        t.noc.bulk = s.noc.bulk ++ [{ kind := .write, k := k.val, e := e, task := q.task
                                      ord := (engineAt s k.val e).issued + 1, addr := dst, lines := 1
                                      data := readBytes s src 64, relay := some s.noc.nextId, way := way' }]) ∧
    (∀ (i id : Nat) (p : SyncPacket), Claim.CrossesSync s i p → p.sig.relay = some id → p.leaves = none → p.came = none →
      s.noc.relays.any (fun r => r.id == id && r.left == 0) = true → firstSignal s.noc.sync i p = true →
      Claim.Takes s p.way.dest → Claim.LiveTarget s p.sig → p.sig.op < 3 →
      ∃ t, exec (.relaySignalApply i) s = .next t ∧ t.noc.sync = dropAt s.noc.sync i ∧
        t.noc.relays = s.noc.relays.filter (fun r => r.id != id) ∧ t.mem = s.mem ∧
        Claim.Signalled ((clusterAt s p.sig.dstK).syncObj p.sig.obj) ((clusterAt t p.sig.dstK).syncObj p.sig.obj) p.sig.op
          p.sig.amount)

/-- 04 R99, R100: an instruction whose reads are back and whose fence is met leaves the engine, and adds SIG_N to the
object that SIG_OBJ names; with no object it changes no object. The last clause leaves diagnostic mode aside. -/
def Obligations.CompletionSignalsItsObject : Prop :=
  ∀ (k : ClusterId) (en : Engine) (i : Nat) (s : State) (f : InFlight),
    let e := engineCode en
    let c := clusterAt s k.val
    jobRunning s = true → (engineAt s k.val e).flight[i]? = some f → f.reads = 0 →
    (wFence f.instr.word = true → ∀ w ∈ (engineAt s k.val e).unacked, f.upTo < w.1) →
    c.diag.state ≠ 1 →
    (wSigObj f.instr.word = noObj → ∃ t, exec (.instructionComplete k en i) s = .next t ∧
      Claim.OnlyCluster s t k.val ∧ (engineAt t k.val e).flight = dropAt (engineAt s k.val e).flight i ∧
      (∀ j, (clusterAt t k.val).syncObj j = c.syncObj j)) ∧
    (wSigObj f.instr.word ≠ noObj → f.instr.task = c.resident →
      ∃ t, exec (.instructionComplete k en i) s = .next t ∧
        Claim.OnlyCluster s t k.val ∧ (engineAt t k.val e).flight = dropAt (engineAt s k.val e).flight i ∧
        Claim.Signalled (c.syncObj (wSigObj f.instr.word)) ((clusterAt t k.val).syncObj (wSigObj f.instr.word)) 0
          (wSigN f.instr.word) ∧
        (∀ j, j ≠ wSigObj f.instr.word → (clusterAt t k.val).syncObj j = c.syncObj j))

/-- 09 R251, 08 R218, R219, R235, R236, 10 R269 to R276: a bulk write whose way is open is written at its home, and an
acknowledgement sets out for its writer; a write of a stack carry line goes on to the partner, is written there too
and is acknowledged after the partner's report; a merge is merged with the stored pairs; a write-through line is
written to its copy and leaves its cluster's queue when both copies have it; the last part of a fabric packet takes
the packet on to its port. Stated for whole lines with no upset, whose way back is open. The model's own readings in
it: log entries 15, 39. -/
def Obligations.BulkWritesAreWrittenAndAcknowledged : Prop :=
  ∀ (i : Nat) (s : State) (p : BulkPacket), Claim.Crosses s i p → Claim.Takes s p.way.dest → p.relay = none → p.e < 16 →
    let back : Prop := passage s p.way.dest (writerUnit s p.k) (if p.k < 512 then p.k % 8 else 0) ≠ .unreachable
    let acked := fun l : List BulkPacket => Claim.SetOut l (fun w =>
      { kind := .ack false false, k := p.k, e := p.e, task := p.task, ord := p.ord, addr := p.addr, lines := 1, data := []
        relay := none, way := w }) p.way.dest (writerUnit s p.k)
    let mirrors := fun n m : Nat => rideThrough s = true ∧ (regionOf s p.addr).isSome = true ∧ partnerOf s n = some m
    let merged := pairBytes (List.zipWith (fun x y => (mergePair x y).1) (linePairs (readBytes s p.addr 64)) (linePairs p.data))
    (p.kind = .write → throughRoom s p.addr p.lines = true →
      (∀ k off, placeOf p.addr = .pad k off → Claim.CarryFlows s k → back →
        ∃ t, exec (.bulkWriteReceived i) s = .next t ∧ t.mem = (padWrite s k p.addr p.data).mem ∧ acked t.noc.bulk ∧
          t.noc.sync = s.noc.sync) ∧
      (∀ n off, placeOf p.addr = .stack n off → (∀ m, ¬ mirrors n m) → back →
        ∃ t, exec (.bulkWriteReceived i) s = .next t ∧ t.mem = (writeBytes s p.addr p.data).mem ∧ acked t.noc.bulk ∧
          t.noc.sync = s.noc.sync) ∧
      (∀ n off m, placeOf p.addr = .stack n off → mirrors n m → passage s (72 + n) (72 + m) 0 ≠ .unreachable →
        ∃ t w, exec (.bulkWriteReceived i) s = .next t ∧ t.mem = (writeBytes s p.addr p.data).mem ∧ w.at_ = 72 + n ∧
          w.dest = 72 + m ∧ t.noc.bulk = dropAt s.noc.bulk i ++ [{ p with kind := .mirror (72 + n), way := w }])) ∧
    (∀ home, p.kind = .mirror home → passage s p.way.dest home 0 ≠ .unreachable →
      ∃ t w, exec (.bulkWriteReceived i) s = .next t ∧ t.mem = (writeCopy s 1 p.addr p.data).mem ∧ w.at_ = p.way.dest ∧
        w.dest = home ∧ t.noc.bulk = dropAt s.noc.bulk i ++ [{ p with kind := .mirrorAck home, data := [], way := w }]) ∧
    (∀ home, p.kind = .mirrorAck home → back →
      ∃ t, exec (.bulkAckReceived i) s = .next t ∧ t.mem = s.mem ∧ acked t.noc.bulk) ∧
    (p.kind = .merge → p.data.length = 64 → upsetsIn s.mem 0 (memKey s p.addr) 64 = [] → back →
      (∀ n off, placeOf p.addr = .stack n off →
        ∃ t, exec (.mergeWriteReceived i) s = .next t ∧ t.mem = (writeBytes s p.addr merged).mem ∧ acked t.noc.bulk) ∧
      (∀ k off, placeOf p.addr = .pad k off → Claim.CarryFlows s k →
        ∃ t, exec (.mergeWriteReceived i) s = .next t ∧ t.mem = (padWrite s k p.addr merged).mem ∧ acked t.noc.bulk)) ∧
    (∀ c, p.kind = .writeThrough c →
      (∀ x ∈ s.noc.bulk, x.kind = .writeThrough c → x.addr = p.addr → x.k = p.k → p.ord ≤ x.ord) →
      ∃ t, exec (.bulkWriteReceived i) s = .next t ∧ t.mem = (writeCopy s c p.addr p.data).mem ∧
        t.noc.bulk = dropAt s.noc.bulk i ∧
        (∀ q r, (clusterAt s p.k).wtQueue = q ++ { line := p.addr / 64, left := [c] } :: r →
          (∀ x ∈ q, x.line ≠ p.addr / 64) → (∀ x ∈ q ++ r, x.left ≠ []) →
          (∀ x ∈ r, x ≠ { line := p.addr / 64, left := [c] }) → (clusterAt t p.k).wtQueue = q ++ r)) ∧
    (∀ sp pkt, p.kind = .fabric sp pkt → (∀ x ∈ dropAt s.noc.bulk i, x.kind ≠ .fabric sp pkt) →
      exec (.bulkWriteReceived i) s = .next (enterRim (takeBulk (Claim.travelled s p.way) i) sp pkt))

/-- 08 R217, R221, R237, 09 R251, 10 R280: a read request is answered with the lines that its home holds; the data
fill the cache in cached mode and go on to their destination; an acknowledgement ends a write's being outstanding, and
the last one of a fabric packet sends its acknowledgement; a contribution to a tree is held at its node until the
sibling's line is there. Each crosses a way that is open, and its answer finds one. The model's own readings in it:
log entries 27, 39, 41. -/
def Obligations.ReadsAcknowledgementsAndContributionsArrive : Prop :=
  ∀ (i : Nat) (s : State) (p : BulkPacket), Claim.Crosses s i p →
    (∀ mode dst circ merge, p.kind = .readReq mode dst circ merge → Claim.Takes s p.way.dest →
      (∀ j, j < p.lines → upsetsIn s.mem 0 (memKey s (p.addr + 64 * j)) 64 = []) →
      passage s p.way.dest (clusterHome s p.k) (if mode = 2#2 then p.k % 8 else 0) ≠ .unreachable →
      ∃ t w, exec (.bulkReadReceived i) s = .next t ∧ t.mem = s.mem ∧ w.at_ = p.way.dest ∧ w.dest = clusterHome s p.k ∧
        t.noc.bulk = dropAt s.noc.bulk i ++
          [{ p with kind := .readData mode dst circ merge, data := readBytes s p.addr (64 * p.lines), way := w }]) ∧
    (∀ mode dst circ merge, p.kind = .readData mode dst circ merge → Claim.Takes s p.way.dest →
      exec (.readDataReceived i) s = .next (useData (takeBulk (Claim.travelled s p.way) i) p mode dst circ merge) ∧
      (mode ≠ 0#2 → p.data.length = 64 → circ = 0 → merge = false → ¬ (padCluster dst = p.k ∧ padBase ≤ dst) →
        passage s (clusterHome s p.k) (homeUnit s (clusterHome s p.k) dst) (homeLocal dst) ≠ .unreachable →
        ∃ t b, exec (.readDataReceived i) s = .next t ∧ b ∈ t.noc.bulk ∧ b.kind = .write ∧ b.addr = dst ∧
          b.data = p.data ∧ b.k = p.k)) ∧
    (∀ ce, p.kind = .ack false ce → Claim.Takes s p.way.dest → p.k < 512 →
      ∃ t, exec (.bulkAckReceived i) s = .next t ∧ t.mem = s.mem ∧ t.noc.bulk = dropAt s.noc.bulk i ∧
        (engineAt t p.k p.e).unacked = (engineAt s p.k p.e).unacked.filter (fun w => w.1 != p.ord) ∧
        (∀ j, j ≠ p.k → clusterAt t j = clusterAt s j)) ∧
    (∀ ce id x, p.kind = .ack false ce → Claim.Takes s p.way.dest → p.k = 1024 + id →
      s.fab.inbound.find? (fun y => y.id == id) = some x → x.left = 1 → x.err = false → 1 < hType x.header ∨ hRly x.header = false →
      let v := takeBulk (Claim.travelled s p.way) i
      exec (.bulkAckReceived i) s = .next (sendBare
        { v with fab := { v.fab with inbound := v.fab.inbound.filter (fun z => z.id != id) } }
        (ackPacket v x.header (hScl x.header) (hSeng x.header) false))) ∧
    (∀ code child acks tree up, p.kind = .tree code child acks →
      treeByCode s code = some tree → parentOf tree child = some up →
      s.noc.nodes.find? (fun x => x.fabric == decide (16 ≤ code) && x.tree == code && x.node == up.1 &&
        x.line == p.addr && x.child != child) = none →
      nodeRoom s (decide (16 ≤ code)) code up.1 child (nodeUnit s (decide (16 ≤ code)) up.2.1) = true →
      ∃ t, exec (.treeContributionReceived i) s = .next t ∧ t.mem = s.mem ∧ t.noc.bulk = dropAt s.noc.bulk i ∧
        t.noc.nodes = s.noc.nodes ++ [{ fabric := decide (16 ≤ code), tree := code, node := up.1, line := p.addr
                                        child := child, data := p.data, acks := acks }])

/-- 11 R314, R316: ten microseconds without an echo raise a circuit's rate by 1 up to 64, with one they do not; a
waiting packet in order leaves its rim only when no earlier one of its writer to the same destination is
unacknowledged. The model's own readings in it: log entries 5, 41, 71. -/
def Obligations.CircuitRatesRiseAndOrderedPacketsWait : Prop :=
  ∀ (c : BitVec 8) (i : Nat) (s : State),
    (∀ x, circuitAt s c.toNat = some x →
      (s.fab.echoSeen.contains c.toNat = false → ∃ t, exec (.rateRaise c) s = .next t ∧
        t = { s with fab := { s.fab with rates := t.fab.rates } } ∧ rateOf t c.toNat = min 64 (rateOf s c.toNat + 1) ∧
        ∀ d, d ≠ c.toNat → rateOf t d = rateOf s d) ∧
      (s.fab.echoSeen.contains c.toNat = true → ∃ t, exec (.rateRaise c) s = .next t ∧ t.fab.rates = s.fab.rates ∧
        t.fab.echoSeen.contains c.toNat = false)) ∧
    (∀ x, jobRunning s = true ∨ 3 ≤ x.1.cls → s.fab.ordWait[i]? = some x →
      let rest := { s with fab := { s.fab with ordWait := dropAt s.fab.ordWait i } }
      (ordBlocked rest x.1 (hOrd x.2.header) = true → exec (.ordPacketRelease i) s = .next s) ∧
      (ordBlocked rest x.1 (hOrd x.2.header) = false → ∀ circ port pkt, x.1.cls < 3 → s.fab.egress = [] →
        circuitAt s x.1.circ = some circ → routeSource s x.2 circ = some (port, pkt, false) → port < 32 →
        portReady s (portAt s port) 0 pkt = true →
        ∃ t pkt' cws, exec (.ordPacketRelease i) s = .next t ∧ t.out.fab = s.out.fab ++ .packet port pkt' :: cws ∧
          pkt'.payload = pkt.payload ∧
          (pkt'.header = pkt.header ∨
            pkt'.header = reHeader pkt.header true (hDl pkt.header) (hDir pkt.header) (hLeg pkt.header)) ∧
          t.fab.ordWait = dropAt s.fab.ordWait i ∧ t.fab.sent = s.fab.sent ∧ t.fab.egress = [] ∧
          (∀ q, q ≠ port → portAt t q = portAt s q) ∧ t.mem = s.mem ∧ t.clusters = s.clusters))

/-! ## The tick (02) and the life of a job -/

/-- 02 R36, R42, R49, 11 R321: an edge of the selected source while no job is held is counted and commits an empty
frame; a pulse outside its window is only counted, and a beacon of another sequence number than the next is reported
too. 02 R36, R42: an edge in a running frame of which some unit has not drained begins the census, with issue stopped
and nothing committed; the fourth flywheel edge in a row loses the source, and once its tick is over the job ends by
fault 10h with the frame uncommitted where it did not commit. The model's own readings in it: log entries 29, 30, 70.
-/
def Obligations.EdgesCommitEmptyFramesOrStartTheCensus : Prop :=
  (∀ (s : State) (port : PortId) (time : Time) (seq : DWord) (offset : BitVec 16) (hops : BitVec 4) (drain : Nat),
     Claim.BetweenTicks s → s.job.state = .none →
     (s.tick.cfg.source = 0#8 → ∃ t, exec (.tickEdge time drain) s = .next t ∧ Claim.EmptyFrame s t) ∧
     (s.tick.cfg.source = 1#8 → edgeInWindow s time = true →
       ∃ t, exec (.tickInPulse time drain) s = .next t ∧ Claim.EmptyFrame s t ∧ t.tick.edgeFault = s.tick.edgeFault) ∧
     (s.tick.cfg.source = 1#8 → edgeInWindow s time = false →
       exec (.tickInPulse time drain) s = .next { s with tick := { s.tick with edgeFault := s.tick.edgeFault + 1 } }) ∧
     (∀ e, s.tick.cfg.source ≠ 0#8 → s.tick.expected = some e → s.tick.flywheels ≠ 3 →
       ∃ t, exec (.flywheelEdge drain) s = .next t ∧ Claim.EmptyFrame s t ∧
         t.tick.edgeFault = s.tick.edgeFault + 1) ∧
     (s.tick.cfg.source = 2#8 → s.tick.cfg.beaconIn.toNat = port.val → (portAt s port.val).state = .up ∨ (portAt s port.val).state = .closed → hops.toNat ≤ 8 →
       edgeInWindow s (time - (portAt s port.val).delay.toNat - offset.toNat) = true →
       (seq = s.tick.seq + 1 →
         ∃ t, exec (.beaconReceived port time seq offset hops true drain) s = .next t ∧ Claim.EmptyFrame s t) ∧
       (seq ≠ s.tick.seq + 1 → ∃ t, exec (.beaconReceived port time seq offset hops true drain) s = .next t ∧
         Claim.Logged s t (Claim.record s .module 0x11 0 15 0 0) ∧ t.tick.committed = s.tick.committed + 1 ∧
         t.tick.count = s.tick.count + 1))) ∧
  (∀ (s : State) (time e : Time) (drain : Nat), s.tick.on = true →
     (Claim.BetweenTicks s → s.job.state = .running → undrainedUnits s ≠ [] →
       (s.tick.cfg.source = 0#8 → ∃ t, exec (.tickEdge time drain) s = .next t ∧ Claim.CensusRuns s t) ∧
       (s.tick.cfg.source = 1#8 → edgeInWindow s time = true →
         ∃ t, exec (.tickInPulse time drain) s = .next t ∧ Claim.CensusRuns s t) ∧
       (s.tick.cfg.source ≠ 0#8 → s.tick.expected = some e → s.tick.flywheels = 3 →
         ∃ t, exec (.flywheelEdge drain) s = .next t ∧ Claim.CensusRuns s t ∧ t.tick.lossDue = true ∧
           t.tick.srcState = 3 ∧ t.tick.expected = none)) ∧
     (s.tick.lossDue = true → s.tick.phase = .idle → ∃ t, exec .tickSourceLost s = .next t ∧ t.tick.lossDue = false ∧
       (s.job.state = .running → Claim.Logged s t (Claim.record s .module 0x10 3 15 0 0) ∧ Claim.JobEnded s t 3 0x10) ∧
       (s.job.state = .none → Claim.Logged s t (Claim.record s .module 0x10 0 15 0 0) ∧ t.job = s.job ∧ t.mem = s.mem)))

/-- 02 R42, R43, R45, R46, 04 R104: a unit that has not drained at the end of the census holds the tick; with every
unit drained an open group ends the job by fault 0Dh, and without one the frame commits; in a domain the module's
outcome is sent to the other members by the management routes, and one without a route is counted. 02 R45, R46, Table
2.4, 11 R303, R324: a vote packet for this module brings its member's outcome: a vote of a frame that is not the last
one missing is kept; the last one decides, so that a hold among the votes holds the tick; a vote that cannot count is
discarded; one for another module goes on; a vote missing at the end of the wait holds the tick. The model's own
readings in it: log entries 29, 31, 32, 33. -/
def Obligations.TheCensusAndTheVotesDecideTheTick : Prop :=
  (∀ (s : State) (drain : Nat), s.tick.phase = .census → s.job.state = .running → s.tick.recovery.active = false →
     s.crown.withheld = [] → s.tick.votes = [] →
     (otherMembers s = [] →
       (undrainedUnits s ≠ [] → ∃ t, exec (.censusTimeout drain) s = .next t ∧ Claim.TickHeld s t ∧
         t.tick.undrained = (undrainedUnits s).map unitId) ∧
       (undrainedUnits s = [] → allOpenGroups s ≠ [] →
         ∃ t, exec (.censusTimeout drain) s = .next t ∧ Claim.JobEnded s t 3 0x0D) ∧
       (undrainedUnits s = [] → allOpenGroups s = [] → allHalted s = false → s.job.endAtCommit = false →
         s.tick.lossDue = false → s.fab.held = [] →
         ∃ t, exec (.censusTimeout drain) s = .next t ∧ Claim.FrameCommits s t)) ∧
     (otherMembers s ≠ [] → (undrainedUnits s = [] → allOpenGroups s = []) → s.fab.egress = [] →
       ∃ t own, exec (.censusTimeout drain) s = .next t ∧ own = (if undrainedUnits s = [] then Vote.commit else .hold) ∧
         t.tick.phase = .voting own ∧ t.mem = s.mem ∧ t.clusters = s.clusters ∧ t.tick.seq = s.tick.seq ∧
         (∀ m, otherMembers s = [m] → m < 4096 →
           (mgmtRoute s m = none → t.fab.unrouted = s.fab.unrouted + 1 ∧ t.out.fab = s.out.fab) ∧
           (∀ port dl, mgmtRoute s m = some (port, dl) → port < 32 →
             portReady s (portAt s port) 0 (putDl (votePacket s m s.tick.seq own) dl) = true →
             .packet port (putDl (votePacket s m s.tick.seq own) dl) ∈ t.out.fab)))) ∧
  (∀ (s u : State) (port : PortId) (time : Time) (k : FabPacket) (v own : Vote) (drain : Nat),
     let m := BitVec.ofNat 12 (hSmod k.header)
     let seq := BitVec.ofNat 64 (fieldAt k.payload 0 8)
     let cmd := Instr.domainVoteReceived port time k drain
     (hType k.header = 7 → arrive { s with svc := { s.svc with now := max s.svc.now time } } port.val k = some u →
       (hDmod k.header ≠ myModule s → exec cmd s = .next (forwardMgmt u port.val k)) ∧
       (hDmod k.header = myModule s → voteOf k = none → exec cmd s = .next u) ∧
       (hDmod k.header = myModule s → voteOf k = some v →
         (voteCounts s m seq = false → exec cmd s = .next u) ∧
         (s.tick.phase = .idle ∨ s.tick.phase = .census → voteCounts s m seq = true →
           exec cmd s = .next { u with tick := { u.tick with votes := u.tick.votes ++ [(m, v)] } }) ∧
         (s.tick.phase = .voting own → s.crown.withheld = [] → s.tick.recovery.active = false →
           voteCounts s m seq = true → (∀ n ∈ otherMembers s, n = m.toNat ∨ ∃ x ∈ s.tick.votes, x.1.toNat = n) →
           (∀ x ∈ s.tick.votes, x.2 ≠ .abandon) → v ≠ .abandon → own = .hold ∨ v = .hold →
           ∃ t, exec cmd s = .next t ∧ Claim.TickHeld s t))) ∧
     (s.tick.phase = .voting own → s.job.state = .running → s.crown.withheld = [] → s.tick.recovery.active = false →
       (∃ n ∈ otherMembers s, ∀ x ∈ s.tick.votes, x.1.toNat ≠ n) → (∀ x ∈ s.tick.votes, x.2 ≠ .abandon) →
       ∃ t, exec (.voteWaitExpiry drain) s = .next t ∧ Claim.TickHeld s t))

/-- 02 R47, R56, 15 R406, 16 R430: a frame overrun that is due ends the job by fault 0Ch; the end of the write-out
leaves every committed line in its declared place, no copy, and the job gone; the copies of a start let its first
frame begin, and an uncorrectable word in them ends it before that frame with reason 30h. The model's own readings in
it: log entries 5, 15, 29, 70. -/
def Obligations.OverrunsWriteOutsAndCopiesEndOrBeginTheJob : Prop :=
  ∀ (s : State) (f : CopyFault),
    (s.tick.overrun = true → s.job.state = .running →
      ∃ t, exec .frameOverrun s = .next t ∧ t.tick.overrun = false ∧ Claim.JobEnded s t 3 0x0C) ∧
    (s.tick.overrun = false → exec .frameOverrun s = .next s) ∧
    (s.job.state = .ending → ∃ t, exec .writeOutComplete s = .next t ∧ t.job.state = .none ∧ t.job.plan = none ∧
      t.clusters = [] ∧ t.mem.dark = [] ∧ t.mem.darkIn = [] ∧ t.topo.remap = [] ∧
      (∀ key, key < 2 ^ 48 → s.mem.darkIn.contains (key / 64) = true → cellGet key t.mem.cells = some (darkByte s key)) ∧
      (∀ key, key < 2 ^ 48 → s.mem.darkIn.contains (key / 64) = false → cellGet key t.mem.cells = cellGet key s.mem.cells) ∧
      ∀ key, 2 ^ 48 ≤ key → cellGet key t.mem.cells = none) ∧
    (s.job.state = .starting → s.job.copiesDone = false →
      (∃ t, exec (.jobStartCopiesDone none) s = .next t ∧ t.job = { s.job with copiesDone := true } ∧
        t.tick = s.tick ∧ t.mem = (if rideThrough s = true then copyCarry s else s).mem ∧
        ∀ key, key < 2 ^ 48 → cellGet key t.mem.cells = cellGet key s.mem.cells) ∧
      (f.code = 6#8 ∨ f.code = 8#8 → ∃ t, exec (.jobStartCopiesDone (some f)) s = .next t ∧
        Claim.JobEnded s t 3 f.code.toNat ∧ t.job.refusal = 0xFFFF0030))

/-- 02 R33, R57, R61: every field of 2800h but sub-index 01h has access rws; a commit of it is refused with 0800 0022h
while a job is held; with a period outside 25 to 2,000, or in ride-through mode above 400, it is refused with 0609
0030h and no field changes; every other period is taken into effect. -/
def Obligations.TickPeriodsAreHeldWithinTheirRange : Prop :=
  ∀ (s : State) (p : Party) (time : Time) (b : Nat) (o : Obj),
    let x := stagingOf s .r2800
    let u := { s with svc := { s.svc with now := max s.svc.now time } }
    let v (f : Nat) : Nat := stagedNat s .r2800 f
    let refused (w : State) (c : Word) : Host.Outcome State Fault Refusal :=
      .next (answer (setStaging w .r2800 { x with refused := true }) p 0x2800 1 (.abort c))
    (2 ≤ b → b ≤ 8 → findObject s p 0x2800 b = .ok o → o.acc = .rws) ∧
    (Claim.Admitted s p 0x2800 1 1 → Claim.Admitted u p 0x2800 1 1 → x.pending = false → crownConfirmed s = true →
      (jobHeld s = true →
        exec (.stagedCommitNow p .r2800) s = refused s 0x08000022 ∧
        exec (.stagedCommitAtTick p .r2800 time) s = refused u 0x08000022) ∧
      (jobHeld s = false → v 2 < 25 ∨ 2000 < v 2 ∨ (v 6 = 1 ∧ 400 < v 2) →
        exec (.stagedCommitNow p .r2800) s = refused s 0x06090030 ∧
        exec (.stagedCommitAtTick p .r2800 time) s = refused u 0x06090030) ∧
      (jobHeld s = false → 25 ≤ v 2 → v 2 ≤ 2000 → v 3 = 0 → v 4 = 0xFF → v 5 = 0 → v 6 ≤ 1 → (v 6 = 1 → v 2 ≤ 400) →
        v 7 ≤ 3 → v 8 = 0 → ∃ t, exec (.stagedCommitNow p .r2800) s = .next t ∧ Claim.Answered s t p 0x2800 1 .ok ∧
          t.tick.cfg.period.toNat = v 2 ∧ t.tick.cfg.ride.toNat = v 6 ∧ t.tick.cfg.holdLim.toNat = v 7 ∧
          t.tick.cfg.source = 0 ∧ t.job = s.job ∧ t.mem = s.mem))

/-! ## Ownership, job control, resets and the dictionary (10, 14, 16) -/

/-- 16 R427: a claim makes the writer the owner of a module that has none; the owner's release clears it while no job
is held; any party's revoke ends a running job as job control code 03h does and clears the owner; every change counts
once, and what changes nothing is not counted. The model's own readings in it: log entry 49. -/
def Obligations.OwnershipIsClaimedReleasedAndRevoked : Prop :=
  ∀ (s : State) (p o : Party), Claim.Admitted s p 0x2802 1 1 →
    (s.dict.owner = none →
      exec (.ownershipClaim p) s = .next (answer { s with dict := { s.dict with
        owner := some p, ownerSince := s.dict.ownerSince + 1 } } p 0x2802 1 .ok) ∧
      exec (.ownershipRelease p) s = .next (answer s p 0x2802 1 .ok) ∧
      exec (.ownershipRevoke p) s = .next (answer s p 0x2802 1 .ok)) ∧
    (s.dict.owner = some o →
      exec (.ownershipClaim p) s = .next (answer s p 0x2802 1 (if o = p then .ok else .abort 0x08000021)) ∧
      (o ≠ p → exec (.ownershipRelease p) s = .next (answer s p 0x2802 1 (.abort 0x08000021))) ∧
      (o = p → jobHeld s = true → exec (.ownershipRelease p) s = .next (answer s p 0x2802 1 (.abort 0x08000022))) ∧
      (o = p → s.job.state = .none → exec (.ownershipRelease p) s = .next (answer { s with dict := { s.dict with
        owner := none, ownerSince := s.dict.ownerSince + 1 } } p 0x2802 1 .ok)) ∧
      (s.job.state = .none → exec (.ownershipRevoke p) s = .next (answer { s with dict := { s.dict with
        owner := none, ownerSince := s.dict.ownerSince + 1 } } p 0x2802 1 .ok)) ∧
      (s.job.state = .running → ∃ t, exec (.ownershipRevoke p) s = .next t ∧ Claim.JobEnded s t 2 0 ∧
        t.dict.owner = none ∧ t.dict.ownerSince = s.dict.ownerSince + 1 ∧ Claim.Answered s t p 0x2802 1 .ok))

/-- 16 R429, R430, 12 R338: a start whose conditions hold, whose descriptor is good and whose preload meets no upset
leaves the job starting with its plan; a start that the module's state bars keeps its reason and changes nothing else;
an end at the next commit waits for it, an end now ends the job with reason 02h, and neither is accepted while no job
is held. The model's own readings in it: log entries 48, 49. -/
def Obligations.JobControlStartsAndEndsTheJob : Prop :=
  ∀ (s : State) (p : Party) (r : Nat),
    let u := { s with job := { s.job with refusal := 0 } }
    let chips := (assignNumbers (spareStacks u)).topo.chiplets
    let clean := fun d : List Byte => ∀ x ∈ (jobPlanOf d).preload, x.src + 64 * x.lines ≤ 0x040000000000 ∧
      ∀ j, j < x.lines → upsetsIn s.mem 0 (x.src + 64 * j) 64 = []
    (Claim.Admitted s p 0x2803 1 1 →
      (stateReason s false = none → layoutBad s.job.descriptor false = none →
        descriptorBad (assignNumbers (spareStacks u)) s.job.descriptor chips = none → clean s.job.descriptor →
        ∃ t, exec (.jobControlStart p) s = .next t ∧ Claim.JobStarts s t p s.job.descriptor .submitter ∧
          t.job.control = 1 ∧ Claim.Answered s t p 0x2803 1 .ok) ∧
      (stateReason s false = some r → exec (.jobControlStart p) s = .next
        (answer { s with job := { s.job with refusal := BitVec.ofNat 32 (r + 0xFFFF0000) } } p 0x2803 1 (.abort 0x08000022))) ∧
      (jobHeld s = true → exec (.jobControlEndAtCommit p) s = .next
        (answer { s with job := { s.job with endAtCommit := true, control := 2 } } p 0x2803 1 .ok)) ∧
      (s.job.state = .running → ∃ t, exec (.jobControlEndNow p) s = .next t ∧ Claim.JobEnded s t 2 0 ∧
        t.job.control = 3 ∧ Claim.Answered s t p 0x2803 1 .ok) ∧
      (jobHeld s = false →
        exec (.jobControlEndAtCommit p) s = .next (answer s p 0x2803 1 (.abort 0x08000022)) ∧
        exec (.jobControlEndNow p) s = .next (answer s p 0x2803 1 (.abort 0x08000022)))) ∧
    (Claim.Admitted s p 0x3802 1 1 →
      (stateReason s true = none → layoutBad s.job.svcDesc true = none →
        descriptorBad (assignNumbers (spareStacks u)) s.job.svcDesc chips = none → clean s.job.svcDesc →
        ∃ t, exec (.serviceJobStart p) s = .next t ∧ Claim.JobStarts s t p s.job.svcDesc .service ∧
          t.job.svcControl = 1 ∧ Claim.Answered s t p 0x3802 1 .ok) ∧
      (jobHeld s = true → exec (.serviceJobEnd p) s = .next
        (answer { s with job := { s.job with endAtCommit := true, svcControl := 2 } } p 0x3802 1 .ok)) ∧
      (jobHeld s = false → exec (.serviceJobEnd p) s = .next (answer s p 0x3802 1 (.abort 0x08000022))))

/-- 16 R431: a window write stores its bytes in the stack at the window address and touches no other byte; a window
read returns the bytes there; a transfer that the window refuses changes nothing. 03 R83, 09 R261: a write of 0 to a
held cluster's numeric flags clears them and nothing else; arming takes effect at the next tick while a tick runs, and
is refused while no job is held or another cluster of the chiplet is armed. 01 R27, 09 R255: the control window
refuses a misaligned access or one of another size, a cluster's page shows its sync objects, and no write to it has an
effect. The model's own readings in it: log entries 49, 50, 59, 72. -/
def Obligations.TheWindowTheFlagsAndTheDiagnosticsAreWritten : Prop :=
  (∀ (s : State) (p : Party) (data : List Byte) (n : Nat) (c : Word),
     let a := s.dict.window.toNat
     (Claim.Admitted s p 0x2804 2 data.length →
       (windowRefusal s a data.length = none → a + data.length ≤ 0x040000000000 →
         ∃ t, exec (.memoryWindowWrite p data) s = .next t ∧ Claim.Answered s t p 0x2804 2 .ok ∧
           t = { s with mem := t.mem, out := t.out } ∧ t.mem.dark = s.mem.dark ∧ t.mem.darkIn = s.mem.darkIn ∧
           (∀ i, i < data.length → cellGet (a + i) t.mem.cells = some (data.getD i 0)) ∧
           ∀ x, x < a ∨ a + data.length ≤ x → cellGet x t.mem.cells = cellGet x s.mem.cells) ∧
       (windowRefusal s a data.length = some c →
         exec (.memoryWindowWrite p data) s = .next (answer s p 0x2804 2 (.abort c)))) ∧
     (Claim.Readable s p 0x2804 2 →
       (windowRefusal s a n = none → upsetsIn s.mem 0 a n = [] →
         exec (.memoryWindowRead p n) s = .next (answer s p 0x2804 2 (.data (readBytes s a n)))) ∧
       (windowRefusal s a n = some c → exec (.memoryWindowRead p n) s = .next (answer s p 0x2804 2 (.abort c)))) ∧
     (jobHeld s = true → n ≤ 2 ^ 30 → windowRefusal s a n = some 0x08000022)) ∧
  (∀ (s : State) (p : Party) (k : ClusterId) (v : DWord),
     let i := 0x4000 + k.val
     let w := v &&& 0x0000FFFFFFFFF3FF
     (Claim.Admitted s p i 3 2 →
       exec (.numericFlagsClear p k) s = .next (answer
         (if clusterHeld s k.val then modCluster s k.val (fun c => { c with flags := 0 }) else s) p i 3 .ok)) ∧
     (Claim.Admitted s p i 0x0D 8 →
       (jobHeld s = false ∨ diagTaken s k.val = true →
         exec (.diagnosticArm p k v) s = .next (answer s p i 0x0D (.abort 0x08000022))) ∧
       (jobHeld s = true → diagTaken s k.val = false → clusterHeld s k.val = true → s.tick.on = true →
         bitsAt w.toNat 1 4 ≤ 5 →
         ∃ t, exec (.diagnosticArm p k v) s = .next t ∧ Claim.Answered s t p i 0x0D .ok ∧
           t = { s with clusters := t.clusters, out := t.out } ∧
           clusterAt t k.val = { clusterAt s k.val with
             diag := { (clusterAt s k.val).diag with pending := some w } } ∧
           ∀ j, j ≠ k.val → clusterAt t j = clusterAt s j)) ∧
     (∀ a n, n ≠ 4 ∧ n ≠ 8 ∨ a % n ≠ 0 → controlRead s a n = .refused) ∧
     (∀ a j, placeOf a = .clusterPage k.val (0x1000 + 8 * j) → a % 8 = 0 → j < 48 → clusterHeld s k.val = true →
       controlRead s a 8 = .data (leBytes 8 (syncWord ((clusterAt s k.val).syncObj j)).toNat)) ∧
     (∀ a bs, (controlWrite s a bs).2 = s))

/-- 10 R290: a seam-domain reset asked for now begins while no job is held and is refused with 0800 0022h while one
is; asked for at the job's end it waits, and a waiting one can be withdrawn; its end leaves every healthy link of the
site full and the object at 00h. 14 R391: a compute-domain reset that is not refused puts the site in state 100b and
loses its scratchpads; it is refused while the site holds a logical chiplet of a held job, is dark or forward-only, is
in reset, or a start-up runs; at its end a site without a retired compute domain is idle at its slate position or
after a takeover, else running, and the reset is counted. The model's own readings in it: log entries 5, 57. -/
def Obligations.DomainResetsRunAndEndInTheSitesState : Prop :=
  (∀ (s : State) (p : Party) (n : Site),
     let i := 0x3000 + n.val
     (Claim.Admitted s p i 0x31 1 →
       (jobHeld s = true →
         exec (.seamResetNow p n) s = .next (answer s p i 0x31 (.abort 0x08000022)) ∧
         ((siteAt s n.val).seamReq ≠ 2 → exec (.seamResetAtJobEnd p n) s = .next
           (answer (modSite s n.val (fun r => { r with seamReq := 1 })) p i 0x31 .ok))) ∧
       (jobHeld s = false → (siteAt s n.val).seamReq ≠ 2 →
         ∃ t, exec (.seamResetNow p n) s = .next t ∧ exec (.seamResetAtJobEnd p n) s = .next t ∧
           (siteAt t n.val).seamReq = 2 ∧ t.mem = s.mem ∧ t.job = s.job ∧ t.dl = s.dl ∧
           (∀ key ∈ siteLinks n.val, (linkAt s key).state ≠ .retired → (linkAt t key).state = .down) ∧
           Claim.Answered s t p i 0x31 .ok) ∧
       exec (.seamResetWithdraw p n) s = .next (answer
         (if (siteAt s n.val).seamReq = 1 then modSite s n.val (fun r => { r with seamReq := 0 }) else s) p i 0x31 .ok)) ∧
     ((siteAt s n.val).seamReq = 2 → (∀ e ∈ s.dl.entries, defKind e ≠ 1 ∧ defKind e ≠ 2) →
       (∀ key ∈ siteLinks n.val, (linkAt s key).failed = [] ∧ (linkAt s key).state ≠ .retired ∧ linkDark s key = false) →
       ∃ t, exec (.seamResetComplete n []) s = .next t ∧ (siteAt t n.val).seamReq = 0 ∧ t.dl = s.dl ∧ t.mem = s.mem ∧
         t.job = s.job ∧ ∀ key ∈ siteLinks n.val, (linkAt t key).state = .full)) ∧
  (∀ (s : State) (p : Party) (n : Site) (verified : BitVec 8),
     let i := 0x4200 + n.val
     let r := siteAt s n.val
     (Claim.Admitted s p i 5 1 →
       ((jobHeld s = true ∧ r.logical.isSome = true) ∨ r.state = .dark ∨ r.state = .forwardOnly ∨ r.state = .computeReset ∨
         startingUp s = true → exec (.computeDomainReset p n) s = .next (answer s p i 5 (.abort 0x08000022))) ∧
       (jobHeld s = false ∨ r.logical = none → r.state = .running ∨ r.state = .slateIdle → startingUp s = false →
         ∃ t, exec (.computeDomainReset p n) s = .next t ∧ Claim.Answered s t p i 5 .ok ∧
           siteAt t n.val = { r with state := .computeReset, resetReq := 1, start := 1 } ∧
           t = { s with topo := t.topo, mem := t.mem, out := t.out } ∧
           (∀ c ∈ s.mem.cells, c.1 < padBase → c ∈ t.mem.cells) ∧
           ∀ x, padBase + n.val * 8 * padWindow ≤ x → x < padBase + (n.val * 8 + 8) * padWindow →
             cellGet x t.mem.cells = none)) ∧
     (r.state = .computeReset →
       ∃ t, exec (.computeResetComplete n [] verified) s = .next t ∧ t.mem = s.mem ∧ t.job = s.job ∧
         (siteAt t n.val).resets = r.resets + 1 ∧ (siteAt t n.val).resetReq = 0 ∧
         (siteAt t n.val).state =
           (if (∃ e ∈ s.dl.entries, (defKind e = 3 ∨ defKind e = 4) ∧ defUnit e = n.val) then .forwardOnly
            else if isSlatePos s.topo n.val = true ∨ r.viaTakeover = true then .slateIdle else .running)))

/-- 16 R422: a write that a check refuses leaves everything but the answer as it was, and the codes come in the order
of R422: a missing index or sub-index, the access right, the owner and a transfer in progress before the length, and
the length before the state; a party whose maltster is off gets no answer. 16 R422, R423, 13 R363: an admitted write
of an object outside the staged records does what the object's rule says and is answered once; a write in segments
takes effect with its last one; a read returns the contents; a transfer whose client is silent for 1 s is dropped and
answered 0504 0000h; a read of the lifetime energy latches the wrap count. The model's own readings in it: log entries
54, 55. -/
def Obligations.AccessesAreRefusedOrWholeAndInOrder : Prop :=
  (∀ (s : State) (p : Party) (i : BitVec 16) (sub : BitVec 8) (data : List Byte) (c : Word) (o : Obj),
     let x := i.toNat
     let y := sub.toNat
     (isAnswered s p = false → exec (.objectWrite p i sub data) s = .next s) ∧
     (isAnswered s p = true →
       (findObject s p x y = .error c → exec (.objectWrite p i sub data) s = .next (answer s p x y (.abort c))) ∧
       (findObject s p x y = .ok o →
         (o.acc = .ro ∨ o.acc = .const →
           exec (.objectWrite p i sub data) s = .next (answer s p x y (.abort 0x06010002))) ∧
         (o.acc = .rw ∨ o.acc = .wo ∨ o.acc = .rwt ∨ o.acc = .rws →
           (ownerOnly x y = true → mayWrite s p = false →
             exec (.objectWrite p i sub data) s = .next (answer s p x y (.abort 0x08000021))) ∧
           (ownerOnly x y = false ∨ mayWrite s p = true → o.size = none → domainBusy s p x y = true →
             exec (.objectWrite p i sub data) s = .next (answer s p x y (.abort 0x08000020))) ∧
           (ownerOnly x y = false ∨ mayWrite s p = true → x ≠ 0x3C10 → ∀ n, o.size = some n → data.length ≠ n →
             exec (.objectWrite p i sub data) s = .next (answer s p x y (.abort 0x06070010))))))) ∧
  (∀ (s : State) (p : Party) (i : BitVec 16) (sub : BitVec 8) (data : List Byte) (n : Nat) (o : Obj) (x : Transfer),
     let a := i.toNat
     let b := sub.toNat
     (Claim.Admitted s p a b data.length → recAt a = none → a ≠ 0x2411 → a ≠ 0x3C10 →
       ∃ t, exec (.objectWrite p i sub data) s = .next t ∧
         t = answer (putObject s p a b data).1 p a b (match (putObject s p a b data).2 with
           | none => .ok
           | some c => .abort c)) ∧
     (Claim.Admitted s p 0x1017 0 2 → data = [0x64, 0] → i = 0x1017 → sub = 0 →
       exec (.objectWrite p i sub data) s = .next (answer { s with can := { s.can with heartbeat := 100 } } p a b .ok)) ∧
     (isAnswered s p = true → a ≠ 0x3C01 → findTransfer s p a b true = some x →
       x.data.length + data.length ≤ domainMax a b →
       ∃ t, exec (.usdoSegment p i sub (.write data false)) s = .next t ∧ Claim.Answered s t p a b .ok ∧
         t = { s with dict := t.dict, out := t.out } ∧
         findTransfer t p a b true = some { party := p, index := a, sub := b, write := true, data := x.data ++ data
                                            pos := x.data.length + data.length }) ∧
     (isAnswered s p = true → a ≠ 0x3C01 → findTransfer s p a b true = some x →
       exec (.usdoSegment p i sub (.write data true)) s = exec (.objectWrite p i sub (x.data ++ data)) (dropTransfer s p a b)) ∧
     (isAnswered s p = true → a ≠ 0x2804 → findTransfer s p a b false = none → readBarred s p a b = .ok o →
       o.val.length ≤ n → exec (.usdoSegment p i sub (.read n)) s =
         .next (answer (readEffect (dropTransfer s p a b) a b) p a b (.data o.val))) ∧
     (∃ t, exec (.usdoTimeout p) s = .next t ∧ t = { s with dict := t.dict, out := t.out } ∧
       t.dict.transfers = s.dict.transfers.filter (fun y => y.party != p) ∧
       t.out.sdo = s.out.sdo ++ (s.dict.transfers.filter (fun y => y.party == p)).map (fun y =>
         { party := p, index := y.index, sub := y.sub, reply := .abort 0x05040000 })) ∧
     (isAnswered s p = true → bootOf s (partyHalf p) ≠ .romOnly →
       ∃ t, exec (.lifetimeEnergyRead p) s = .next t ∧ t.power = { s.power with lifeLatch := s.power.lifeWraps } ∧
         Claim.Answered s t p 0x2440 3 (.data (leBytes 8 s.power.lifeEnergy.toNat)) ∧
         t = { s with power := t.power, out := t.out, dict := t.dict }))

/-- 16 R424: a field write goes to the staging copy and leaves the value in effect; a discard makes the copy equal to
what is in effect; a commit now puts the copy into effect; a commit at the tick waits while a tick runs and acts as a
commit now while none does; a refused commit keeps the copy and reads 05h; while a commit waits, a field write is
refused. The model's own readings in it: log entries 28, 54. -/
def Obligations.StagedRecordsCommitWhole : Prop :=
  ∀ (s : State) (p : Party) (r : StagedRec) (sub : BitVec 8) (data : List Byte) (time : Time) (c : Word),
    let i := recIndex r
    let b := sub.toNat
    let x := stagingOf s r
    let u := { s with svc := { s.svc with now := max s.svc.now time } }
    (Claim.Admitted s p i b data.length → b ≠ 1 →
      (x.pending = true → exec (.stagedFieldWrite p r sub data) s = .next (answer s p i b (.abort 0x08000022))) ∧
      (x.pending = false → ∃ t, exec (.stagedFieldWrite p r sub data) s = .next t ∧ Claim.Answered s t p i b .ok ∧
        t = { s with dict := t.dict, out := t.out } ∧ stagedOf t r b = data ∧
        (∀ f, f ≠ b → stagedOf t r f = stagedOf s r f) ∧ (∀ f, effectOf t r f = effectOf s r f) ∧
        ∀ q, q ≠ r → stagingOf t q = stagingOf s q)) ∧
    (Claim.Admitted s p i 1 1 →
      (exec (.stagedDiscard p r) s = .next (answer (setStaging s r Staging.clean) p i 1 .ok)) ∧
      (commitRefusal s r false = none → crossRecord r = false →
        ∃ t, exec (.stagedCommitNow p r) s = .next t ∧ t = answer (commitNow s r) p i 1 .ok ∧ recState t r = 0) ∧
      (commitRefusal s r false = none → crossRecord r = true →
        ∃ t, exec (.stagedCommitNow p r) s = .next t ∧ t = { s with dict := t.dict } ∧
          t.dict.cross = s.dict.cross ++ [{ cmd := .commit r false s.svc.now
                                            epoch := epochOf s (s.crown.holder.getD .north), party := p, req := none }]) ∧
      (commitRefusal s r false = some c → x.pending = false →
        exec (.stagedCommitNow p r) s = .next (answer (setStaging s r { x with refused := true }) p i 1 (.abort c)))) ∧
    (Claim.Admitted u p i 1 1 → commitRefusal u r s.tick.on = none → crossRecord r = false →
      (s.tick.on = true → ∃ t, exec (.stagedCommitAtTick p r time) s = .next t ∧ Claim.Answered s t p i 1 .ok ∧
        stagingOf t r = { x with pending := true, refused := false, late := false } ∧
        t = { u with dict := t.dict, out := t.out }) ∧
      (s.tick.on = false → exec (.stagedCommitAtTick p r time) s = .next (answer (commitNow u r) p i 1 .ok)))

/-! ## Power, the crown and the field network (13, 15, 16) -/

/-- 13 R344, R360, R361: a power state that is refused is answered 0800 0022h with nothing changed; one that is taken
goes to the other maltster with the crown's epoch; on its acceptance the change is under way and the write is
answered, and on a refusal or no answer neither half applies it; 2411h:02h reads the new state once the change is
done. The model's own readings in it: log entries 28, 62. -/
def Obligations.PowerStatesCrossTheHalves : Prop :=
  ∀ (s : State) (p : Party) (code : Nat) (cmd : Instr) (x : CrossEntry) (b : BitVec 8),
    (code = 0 ∧ cmd = .powerStateRun p ∨ code = 1 ∧ cmd = .powerStateHold p ∨ code = 2 ∧ cmd = .powerStatePark p ∨
      code = 3 ∧ cmd = .powerStateQuiet p) →
    (Claim.Admitted s p 0x2411 1 1 →
      (code ≠ 0 → jobHeld s = true ∨ s.power.state = .tripped ∨ crownConfirmed s = false →
        exec cmd s = .next (answer s p 0x2411 1 (.abort 0x08000022))) ∧
      (code = 0 → jobHeld s = true → s.power.state ≠ .tripped → exec cmd s = .next (answer s p 0x2411 1 .ok)) ∧
      (jobHeld s = false → s.power.state ≠ .tripped → crownConfirmed s = true →
        exec cmd s = .next { s with dict := { s.dict with cross := s.dict.cross ++
          [{ cmd := .power (BitVec.ofNat 8 code), epoch := epochOf s (s.crown.holder.getD .north), party := p
             req := none }] } })) ∧
    (s.dict.cross = [x] → x.req = none → s.dict.ordered = [] → x.cmd = .power b →
      (crossAccepted s = true → b.toNat ≤ 3 → jobHeld s = false → s.power.state ≠ .tripped → s.power.state ≠ .quiet →
        exec .crossHalfCommand s = .next (answer { s with
          dict := { s.dict with cross := [] }
          power := { s.power with command := b, target := some (powerStateOf b.toNat) } } x.party 0x2411 1 .ok)) ∧
      (crossAccepted s = false → exec .crossHalfCommand s = .next (answer { s with
        dict := { s.dict with cross := [] } } x.party 0x2411 1 (.abort 0x08000022))) ∧
      exec .crossHalfTimeout s = .next (answer { s with
        dict := { s.dict with cross := [] } } x.party 0x2411 1 (.abort 0x08000022))) ∧
    (∀ st, s.power.target = some st → s.su.step = 8 → s.power.state ≠ .tripped →
      ∃ t, exec .powerStateChangeDone s = .next t ∧ t.power = { s.power with state := st, target := none } ∧
        t = { s with power := t.power, mem := t.mem } ∧ (st ≠ .quiet → t.mem = s.mem) ∧
        (st = .quiet → ∀ a, padBase ≤ a → cellGet a t.mem.cells = none))

/-- 15 R407 to R410: the holder sends its epoch, and the other maltster's acknowledgement confirms it for 50 ms; a
maltster that does not hold the crown claims the next epoch; the former holder's acknowledgement, or a witness of the
claimed epoch, makes the claimant holder and counts a take; a witness of the current epoch confirms, one of another
epoch is ignored; a maltster without evidence withholds commit. The model's own readings in it: log entries 5, 38. -/
def Obligations.TheCrownIsRenewedClaimedAndWithheld : Prop :=
  ∀ (s : State) (h : Half) (e : Word) (p : Party),
    (crownSender s = some h → exec .crownRenewal s =
      .next { s with crown := { s.crown with renewal := some (sentEpoch s h) } }) ∧
    (crownSender s = none → exec .crownRenewal s = .next s) ∧
    (crownSender s = some h → s.crown.renewal = some e → bootOf s (Half.other h) = .ready →
      (epochOf s (Half.other h)).toNat ≤ e.toNat →
      ∃ t, exec .crownRenewalReceived s = .next t ∧ t = { s with crown := t.crown } ∧ t.crown.renewal = none ∧
        t.crown.peerAck = true ∧ t.crown.lease = 50 ∧ t.crown.withheld = [] ∧ epochOf t (Half.other h) = e ∧
        claimOf t (Half.other h) = none ∧
        (claimOf s h = some e → t.crown.holder = some h ∧ epochOf t h = e ∧ claimOf t h = none ∧
          t.crown.takes = s.crown.takes + 1) ∧
        (claimOf s h = none → t.crown.holder = s.crown.holder ∧ epochOf t h = epochOf s h ∧
          t.crown.takes = s.crown.takes)) ∧
    (bootOf s h = .ready → s.crown.holder = some (Half.other h) → claimOf s h = none →
      ∃ t, exec (.crownTake h) s = .next t ∧ t = { s with crown := t.crown } ∧ claimOf t h = some (epochOf s h + 1) ∧
        t.crown.flashEpoch = epochOf s h + 1 ∧ t.crown.holder = s.crown.holder ∧ epochOf t h = epochOf s h) ∧
    (bootOf s h = .ready → s.crown.holder.isSome = true →
      ∃ t, exec (.crownUnconfirmed h) s = .next t ∧ t = { s with crown := t.crown } ∧ h ∈ t.crown.withheld ∧
        t.crown.lease = 0 ∧ witnessOf t h = false ∧ t.crown.holder = s.crown.holder) ∧
    (Claim.Admitted s p 0x2030 5 4 → h = partyHalf p →
      (claimOf s h = some e → ∃ t, exec (.crownWitness p e) s = .next t ∧ t = { s with crown := t.crown, out := t.out } ∧
        t.crown.holder = some h ∧ epochOf t h = e ∧ t.crown.takes = s.crown.takes + 1 ∧ witnessOf t h = true ∧
        Claim.Answered s t p 0x2030 5 .ok) ∧
      (claimOf s h ≠ some e → epochOf s h = e → s.crown.holder.isSome = true →
        ∃ t, exec (.crownWitness p e) s = .next t ∧ t = { s with crown := t.crown, out := t.out } ∧
          witnessOf t h = true ∧ t.crown.lease = 50 ∧ t.crown.holder = s.crown.holder ∧
          t.crown.takes = s.crown.takes ∧ Claim.Answered s t p 0x2030 5 .ok) ∧
      (claimOf s h ≠ some e → epochOf s h ≠ e → exec (.crownWitness p e) s = .next (answer s p 0x2030 5 .ok)))

/-- 16 R417, R418, R420, R435: NMT moves the port's state, and a communication reset takes the base node ID into
force; stop and the resets of node and application are ignored; heartbeat, crown heartbeat and emergency message are
sent under the node ID in force; the crown heartbeat counts, and an emergency message takes the oldest record off its
queue. The model's own readings in it: log entry 56. -/
def Obligations.FieldNetworkMessagesAreObeyedAndSent : Prop :=
  ∀ (s : State) (h : Half), bootOf s h = .ready →
    (∃ t, exec (.nmtStart h) s = .next t ∧ nmtOf t h = .operational ∧ nmtOf t (Half.other h) = nmtOf s (Half.other h) ∧
      t = { s with can := t.can } ∧ nodeOf t h = nodeOf s h) ∧
    (∃ t, exec (.nmtEnterPreOperational h) s = .next t ∧ nmtOf t h = .preOperational ∧
      nmtOf t (Half.other h) = nmtOf s (Half.other h) ∧ t = { s with can := t.can } ∧ nodeOf t h = nodeOf s h) ∧
    (∃ t, exec (.nmtResetCommunication h) s = .next t ∧ nmtOf t h = .preOperational ∧ t = { s with can := t.can } ∧
      nodeOf t h = (s.can.flashBase.toNat + (if h = .north then 2 * bit s.fuse.nidNorth else 2 * bit s.fuse.nidSouth + 1)) % 256 ∧
      nodeOf t (Half.other h) = nodeOf s (Half.other h)) ∧
    exec (.nmtStop h) s = .next s ∧ exec (.nmtResetNode h) s = .next s ∧ exec (.nmtResetApplication h) s = .next s ∧
    exec (.nmtHeartbeat h) s = .next (sendCan s (.heartbeat h (nodeOf s h) (nmtOf s h))) ∧
    (nmtOf s h ≠ .initialising → ∃ t v, exec (.crownHeartbeat h) s = .next t ∧
      t = { s with can := t.can, out := { s.out with can := s.out.can ++ [.tpdo1 h (nodeOf s h) v] } } ∧
      v.extractLsb' 0 8 = BitVec.ofNat 8 (holderCode s) ∧ v.extractLsb' 8 32 = sentEpoch s h ∧
      v.extractLsb' 64 32 = (if h = .north then s.can.seqNorth else s.can.seqSouth) ∧
      (if h = .north then t.can = { s.can with seqNorth := s.can.seqNorth + 1 }
       else t.can = { s.can with seqSouth := s.can.seqSouth + 1 })) ∧
    (∀ r rest, (if h = .north then s.can.emcyNorth else s.can.emcySouth) = r :: rest →
      ∃ t, exec (.emcySend h) s = .next t ∧ (if h = .north then t.can = { s.can with emcyNorth := rest }
          else t.can = { s.can with emcySouth := rest }) ∧
        t = { s with can := t.can, out := { s.out with can := s.out.can ++
          [.emcy h (nodeOf s h) (BitVec.ofNat 16 (0xFF00 + bitsAt r.toNat 64 8)) s.can.errorReg r] } })

/-- 13 R342, R348, R357: a trip puts the module in state 04h with its cause shown, takes the half's rails, ports and
memory, stops the tick and ends a running job by fault 13h with its frame uncommitted; a droop outside the drain
window raises the rate of the site's clusters until 128 cycles after it, and one inside only bars the clock switch.
The model's own readings in it: log entries 9, 26, 80. -/
def Obligations.TripsAndDroopsActAtOnce : Prop :=
  ∀ (s : State) (h : Half) (cause : TripCause) (n : Site) (level : Fin 2) (relock : Bool),
    (∃ t, exec (.protectiveTrip h cause) s = .next t ∧ t.power.state = .tripped ∧ t.power.target = none ∧
      t.power.protect = s.power.protect ||| BitVec.ofNat 16 (2 ^ (tripBit cause + if h = .north then 0 else 6)) ∧
      (h = .north → t.power.trippedN = true ∧ t.power.trippedS = s.power.trippedS) ∧
      (h = .south → t.power.trippedS = true ∧ t.power.trippedN = s.power.trippedN) ∧
      isReady t bitRails = false ∧ (∀ p, portHalf p = h → portUp (portAt t p) = false) ∧ t.tick.on = false ∧ t.tick.committed = s.tick.committed ∧
      (∀ a, a < 2 ^ 48 → cellGet a t.mem.cells = if keyHalf a = h then none else cellGet a s.mem.cells) ∧
      Claim.Logged s t (Claim.record s (.maltster h) 0x13 (if jobHeld s = true ∧ s.job.state ≠ .ending then 3 else 0) 15 0
        t.power.protect.toNat) ∧
      (s.job.state = .running → t.job.endReason = 3 ∧ t.job.endFault = 0x13 ∧ t.mem.pending = [] ∧
        t.job.endFrames = s.tick.committed)) ∧
    (∃ t, exec (.droopTrip n level relock) s = .next t ∧ (siteAt t n.val).droops = (siteAt s n.val).droops + 1 ∧
      t.power.droops = s.power.droops + 1 ∧ t.mem = s.mem ∧ t.job = s.job ∧ t.tick = s.tick ∧
      (s.tick.phase = .idle → relock = false → t.power.droopSeen = s.power.droopSeen ∧
        (siteAt t n.val).droopRate = max (siteAt s n.val).droopRate (if level.val = 0 then 32 else 64) ∧
        ∀ k c, tfind s.clusters k = some c → tfind t.clusters k = some (if clusterSite s k = some n.val then
          { c with rate := max c.rate (if level.val = 0 then 32 else 64) } else c)) ∧
      (s.tick.phase ≠ .idle ∨ relock = true → t.power.droopSeen = true ∧ t.clusters = s.clusters ∧
        (siteAt t n.val).droopRate = (siteAt s n.val).droopRate)) ∧
    (∃ t, exec (.droopHoldExpiry n) s = .next t ∧ (siteAt t n.val).droopRate = 0 ∧ t.power = s.power ∧ t.mem = s.mem ∧
      ∀ k c, tfind s.clusters k = some c → ∃ r, tfind t.clusters k = some { c with rate := r } ∧
        (clusterSite s k ≠ some n.val → r = c.rate) ∧
        (clusterSite s k = some n.val → ∀ key ∈ [0, 1, if siteHalf n.val = .north then 2 else 3, 100 + n.val, 200 + n.val,
          300 + n.val], tget 0 s.power.rates key ≤ r)) ∧
    exec (.vcoreRampDone n) s = .next { s with power := { s.power with ramped := setInsert n.val s.power.ramped } }

/-- 13 R350, R352 to R356: a control step meters the input it measured and the estimate of the module and of a site,
whose dynamic part is gain x activity x frequency x voltage squared, shows the means over 1 ms, takes the effective
budget, lowers the frame's ceiling where the budget has fallen, and gives every limit the rate that its window's mean
asks for, at most 56 and falling by 4 at most; memory, the job and the tick stay. 13 R351: outside divergence a window
moves the gain of a measured rail by half its relative error, within 0.5 and 2, and a skipped rail keeps its gain. The
model's own readings in it: log entries 35, 36, 74, 78. -/
def Obligations.ControlStepsTakeBudgetAndRatesAndCalibrate : Prop :=
  (∀ (s : State) (c : ControlInputs),
     let u := takeBudget (takeReadings (takeMeters s c) c)
     let ls := moduleLimits u ++ c.sites.flatMap (siteLimits u)
     ∃ t, exec (.controlStep c) s = .next t ∧ t.mem = s.mem ∧ t.job = s.job ∧ t.tick = s.tick ∧ t.dict = s.dict ∧
       meterOf t 0 .measured = (((1000 * c.inputPower : Nat) : Int) :: meterOf s 0 .measured).take 4000 ∧
       meterNow t 0 .shown = ((moduleEstimate s c false).total : Int) ∧
       t.power.inPower = BitVec.ofNat 32 ((meterMean t 0 .measured 4000).toNat / 1000) ∧
       t.power.estPower = BitVec.ofNat 32 ((meterMean t 0 .shown 4000).toNat / 1000) ∧
       (∀ r, c.sites = [r] → meterNow t (400 + r.s.val) .shown = ((siteEstimate s c false r).total : Int) ∧
         (siteAt t r.s.val).estPower = BitVec.ofNat 16 ((meterMean t (400 + r.s.val) .shown 4000).toNat / 1000) ∧
         (coreEstimate s c r 0 false).dyn = ((gainAt s r.s.val 0).gain *
           (activityCount s c r.s.val 0 false * s.power.clockNow.toNat * r.vcore ^ 2 : Nat) / (10 ^ 12 : Nat)).floor.toNat) ∧
       t.power.voltNorth = BitVec.ofNat 16 c.voltNorth ∧ t.power.voltSouth = BitVec.ofNat 16 c.voltSouth ∧
       t.power.effective = BitVec.ofNat 32 (effectiveBudget s) ∧
       t.power.ceiling = (if effectiveBudget s < s.power.effective.toNat then BitVec.ofNat 32 (min (effectiveBudget s) s.power.ceiling.toNat)
         else s.power.ceiling) ∧
       t.power.notMet = (if ls.any (fun l => 56 < l.want) then s.power.notMet + 1 else s.power.notMet) ∧
       ((ls.map Limit.key).Nodup → ∀ l ∈ ls, tget 0 t.power.rates l.key =
         max (min l.want 56) (tget 0 s.power.rates l.key - 4)) ∧
       t.power.jobEnergy = s.power.jobEnergy ∧ t.power.lifeEnergy = s.power.lifeEnergy) ∧
  (∀ (s : State) (c : CalibrationInputs) (r : RailWindow), c.rails = [r] →
     let u := unitIndex r.unit
     let g := gainAt s u r.rail.val
     ∃ t, exec (.calibrationWindow c) s = .next t ∧ t.mem = s.mem ∧ t.job = s.job ∧ t.tick = s.tick ∧
       (c.clockSwitch = true ∨ r.absent = true ∨ railAbsent s r = true ∨ r.m < 10000 → t.power.gains = s.power.gains) ∧
       (c.clockSwitch = false → r.absent = false → railAbsent s r = false → 10000 ≤ r.m → s.power.frozen = false → r.e ≠ 0 →
         (gainAt t u r.rail.val).gain =
           max (1 / 2) (min 2 (g.gain * (1 + ((r.m : Rat) - (r.e : Rat)) / (2 * (r.e : Rat)))))) ∧
       (c.clockSwitch = false → r.absent = false → railAbsent s r = false → 10000 ≤ r.m → s.power.frozen = false → r.e = 0 →
         1 / 2 ≤ (gainAt t u r.rail.val).gain ∧ (gainAt t u r.rail.val).gain ≤ 2))

/-- 13 R362, R363, R367, R368: energy adds to the lifetime counter modulo 2^64 with its wraps counted, and to the
job's while a job is held; a save keeps the lifetime counter; a low flow and an inlet above 45 C set their warning
bits. 13 R353: a write of the rack budget replaces it and ends the fallback; a timeout while the rack budget is
selected puts the fallback in force and counts, and has no effect otherwise. The model's own readings in it: log entry
36. -/
def Obligations.EnergyBudgetAndWarningsAreKept : Prop :=
  (∀ (s : State) (a b flow : Nat) (tenths : Int),
     (∃ t, exec (.energyIntegration a b) s = .next t ∧ t = { s with power := t.power } ∧
       t.power.lifeEnergy = s.power.lifeEnergy + BitVec.ofNat 64 (a + b) ∧
       t.power.lifeWraps = s.power.lifeWraps + BitVec.ofNat 32 ((s.power.lifeEnergy.toNat + (a + b)) / 2 ^ 64) ∧
       (jobHeld s = false → t.power.jobEnergy = s.power.jobEnergy ∧ t.power.jobFrac = s.power.jobFrac) ∧
       (jobHeld s = true → 1000 * s.power.jobEnergy.toNat + s.power.jobFrac + (a + b) < 1000 * 2 ^ 64 →
         1000 * t.power.jobEnergy.toNat + t.power.jobFrac = 1000 * s.power.jobEnergy.toNat + s.power.jobFrac + (a + b))) ∧
     exec .lifetimeEnergySave s = .next { s with power := { s.power with
       savedLife := s.power.lifeEnergy, savedWraps := s.power.lifeWraps } } ∧
     (6 * flow < 5 * s.fuse.variant.minFlow → ∃ t, exec (.lowFlowWarning flow) s = .next t ∧
       t = { s with power := t.power } ∧ t.power.warnings = s.power.warnings ||| 1) ∧
     (450 < tenths → ∃ t, exec (.inletAbove45C tenths) s = .next t ∧ t = { s with power := t.power } ∧
       t.power.warnings = s.power.warnings ||| 2 ∧ t.power.inlet = tenths)) ∧
  (∀ (s : State) (p : Party) (w : Word),
     (Claim.Admitted s p 0x2430 1 4 → exec (.rackBudgetWrite p w) s = .next (answer { s with
       power := { s.power with budget := w, onFallback := false } } p 0x2430 1 .ok)) ∧
     (s.power.limitMode.getLsbD 1 = true → s.power.timeout ≠ 0 → exec .budgetTimeout s = .next { s with
       power := { s.power with onFallback := true, timeouts := s.power.timeouts + 1 } }) ∧
     (s.power.limitMode.getLsbD 1 = false ∨ s.power.timeout = 0 → exec .budgetTimeout s = .next s))

/-! ## Management, start-up and images (11, 14, 16, 17) -/

/-- 17 R446, R447, 14 R379, R383, 11 R324: a challenge takes its snapshot unless a report is being built or DLIST
reads 0, and the report is signed; an uploaded set that verifies fills the bank that does not run, in both halves, and
one that does not is refused with that bank invalid; an accepted clear request waits for the next start-up; a good
route table between jobs is in force at once. 14 R384: both activations are refused with 0800 0022h while a job is
held, a start-up runs, or no valid set lies in the other bank; the first starts the broadcast of the new set; a full
restart begins start-up anew from the other bank and keeps the defect list and what the stacks hold. The model's own
readings in it: log entries 52, 53, 64. -/
def Obligations.UploadsChallengesRoutesAndActivationsAreTaken : Prop :=
  (∀ (s : State) (p : Party) (h : Half) (bs : List Byte) (x : ImageSet) (c : Nat), h = partyHalf p →
     (Claim.Admitted s p 0x3C10 1 bs.length → bs.length = 32 →
       ((attestOf s h).state = 1 → exec (.attestationChallenge p bs) s = .next (answer s p 0x3C10 1 (.abort 0x08000020))) ∧
       ((attestOf s h).state ≠ 1 → isReady s bitDlist = false →
         exec (.attestationChallenge p bs) s = .next (answer s p 0x3C10 1 (.abort 0x08000022))) ∧
       ((attestOf s h).state ≠ 1 → isReady s bitDlist = true → exec (.attestationChallenge p bs) s = .next
         (answer (setAttest s h { attestOf s h with nonce := bs, state := 1, built := reportBody s h bs, report := [] })
           p 0x3C10 1 .ok))) ∧
     ((attestOf s h).state = 1 → exec (.attestationReportReady h) s = .next (setAttest s h { attestOf s h with
       state := 2, report := (attestOf s h).built ++ ed448Sign (identitySecret s h) ctxAttest (attestOf s h).built, built := []
       signed := (attestOf s h).signed + 1 })) ∧
     (Claim.Admitted s p 0x3C01 1 bs.length →
       (verifySet s.fuse.rootHash (minSvnOf s h) bs = .passes x → carriesAll s x = true →
         ∃ t, exec (.imageSetUpload p bs) s = .next t ∧ Claim.Answered s t p 0x3C01 1 .ok ∧
           t = { s with img := t.img, out := t.out } ∧ t.img.progress = BitVec.ofNat 32 bs.length ∧
           t.img.running = s.img.running ∧
           ∀ g, bankOf t g (1 - runningBankOf s g) = .valid x ∧ bankOf t g (runningBankOf s g) = bankOf s g (runningBankOf s g)) ∧
       (verifySet s.fuse.rootHash (minSvnOf s h) bs = .fails c →
         ∃ t, exec (.imageSetUpload p bs) s = .next t ∧ Claim.Answered s t p 0x3C01 1 (.abort 0x06090030) ∧
           t.img.verifyFails = s.img.verifyFails + 1 ∧ t.img.running = s.img.running ∧
           ∀ g, bankOf t g (1 - runningBankOf s g) = .invalid ∧
             bankOf t g (runningBankOf s g) = bankOf s g (runningBankOf s g))) ∧
     (Claim.Admitted s p 0x2C11 1 bs.length →
       (jobHeld s = true → exec (.defectListClearRequest p bs) s = .next (answer s p 0x2C11 1 (.abort 0x08000022))) ∧
       (jobHeld s = false → startingUp s = false → clearGood s bs = false →
         exec (.defectListClearRequest p bs) s = .next (answer s p 0x2C11 1 (.abort 0x06090030))) ∧
       (jobHeld s = false → startingUp s = false → clearGood s bs = true →
         ∃ t r, exec (.defectListClearRequest p bs) s = .next t ∧ Claim.Answered s t p 0x2C11 1 .ok ∧
           t = { s with dl := { s.dl with clear := some r, clearState := 1 }, out := t.out })) ∧
     (Claim.Admitted s p 0x3081 4 bs.length →
       (jobHeld s = true → exec (.managementRoutesWrite p bs) s = .next (answer s p 0x3081 4 (.abort 0x08000022))) ∧
       (jobHeld s = false → routesGood bs = false ∨ ¬ ((routesOf bs).map MgmtRoute.dmod).Nodup ∨
           (∃ r ∈ routesOf bs, r.dmod = myModule s ∨ s.fab.ethPorts.getLsbD r.port = true) →
         exec (.managementRoutesWrite p bs) s = .next (answer s p 0x3081 4 (.abort 0x06090030))) ∧
       (jobHeld s = false → routesGood bs = true → routesAllowed s (routesOf bs) = true →
         exec (.managementRoutesWrite p bs) s = .next (answer { s with
           fab := { s.fab with routeTbl := bs, routes := routesOf bs } } p 0x3081 4 .ok)))) ∧
  (∀ (s : State) (p : Party) (x : ImageSet), Claim.Admitted s p 0x3C02 1 1 →
     (jobHeld s = true ∨ startingUp s = true ∨ spareSet s = none →
       exec (.activationClusterService p) s = .next (answer s p 0x3C02 1 (.abort 0x08000022)) ∧
       exec (.activationFullRestart p) s = .next (answer s p 0x3C02 1 (.abort 0x08000022))) ∧
     (jobHeld s = false → startingUp s = false → spareSet s = some x → receivingClusters s ≠ [] →
       ∃ t, exec (.activationClusterService p) s = .next t ∧ Claim.Answered s t p 0x3C02 1 .ok ∧
         t.img.running = some x ∧ t.img.oldSet = s.img.running ∧ t.img.activation = 1 ∧ t.img.actState = 1 ∧
         t.img.active = true ∧ t.img.session = s.img.session + 1 ∧ t.su.step = 6 ∧ isReady t bitFw = false ∧
         t.img.bootBank = s.img.bootBank ∧ t.mem = s.mem ∧ t.dl = s.dl) ∧
     (jobHeld s = false → startingUp s = false → spareSet s = some x →
       ∃ t, exec (.activationFullRestart p) s = .next t ∧ Claim.Answered s t p 0x3C02 1 .ok ∧
         t.img.bootBank = BitVec.ofNat 8 (1 - runningBankOf s .north) ∧
         t.img.bootSouth = BitVec.ofNat 8 (1 - runningBankOf s .south) ∧
         t.su.startCount = s.su.startCount + 1 ∧ t.dl.entries = s.dl.entries ∧ t.job = State.reset.job ∧
         t.clusters = [] ∧ t.dict = State.reset.dict ∧ t.crown.holder = none ∧ t.flt = State.reset.flt ∧
         ∀ a, cellGet a t.mem.cells = if a < padBase then cellGet a s.mem.cells else none))

/-- 16 R433, R434, 11 R324: a management read is answered with the object's contents, a write of a whole object does
what the write does, a 17th outstanding request is answered 0800 0020h, an ordered request waits for the earlier ones,
and a repeat of a kept transaction is answered with the kept response; a packet for another module goes on by the
route table, and one that finds no port is discarded and counted; a response ends a request's being outstanding. The
model's own readings in it: log entry 55. -/
def Obligations.ManagementRequestsAreServedAndForwarded : Prop :=
  ∀ (s v : State) (r : MgmtRequest) (o : Obj) (k : KeptReply) (port : PortId) (pkt : FabPacket) (q : Nat × Bool),
    let u := fetchRequest { s with svc := { s.svc with now := max s.svc.now r.time } } r
    let a : Asker := { party := requester r, req := some r }
    let i := r.index.toNat
    let b := r.sub.toNat
    let live := s.dict.kept.filter (fun y => r.time ≤ y.time + 4000000000)
    let same := live.find? (fun y => y.smod == r.smod && y.req == r.req && y.txn == r.txn)
    (bootOf s r.half ≠ .off → s.fab.moduleId ≠ 0 →
      (same = some k → exec (.managementRequest r) s = .next (sendMgmt u k.pkt)) ∧
      (same = none → 16 ≤ outstanding s r →
        exec (.managementRequest r) s = .next (respond u a i b (.abort 0x08000020) false 0)) ∧
      (same = none → 0 < outstanding s r → outstanding s r < 16 → r.ord = true →
        exec (.managementRequest r) s = .next { u with dict := { s.dict with ordered := s.dict.ordered ++ [r] } }) ∧
      (same = none → outstanding s r = 0 → r.count.toNat ≤ 8128 →
        (r.op = 0 → i ≠ 0x2804 → r.offset = 0 → readBarred u (requester r) i b = .ok o → o.val.length ≤ r.count.toNat →
          exec (.managementRequest r) s = .next
            (respond (readEffect (dropTransfer u (requester r) i b) i b) a i b (.data o.val) true o.val.length)) ∧
        (r.op = 1 → findObject u (requester r) i b = .ok o → o.size ≠ none →
          exec (.managementRequest r) s = .next (writeObject u a i b r.data r.time)) ∧
        (2 < r.op.toNat → exec (.managementRequest r) s = .next (respond u a i b (.abort 0x06090030) false 0)))) ∧
    (hType pkt.header = 5 ∨ hType pkt.header = 6 ∨ hType pkt.header = 7 →
      (arrive s port.val pkt = none → exec (.managementForward port pkt) s = .next s) ∧
      (arrive s port.val pkt = some v →
        (hDmod pkt.header ≠ myModule s → mgmtRoute v (hDmod pkt.header) = some q → q.1 < 32 → v.fab.egress = [] →
          portReady v (portAt v q.1) 0 (putDl pkt q.2) = true →
          ∃ t cws, exec (.managementForward port pkt) s = .next t ∧
            t.out.fab = v.out.fab ++ .packet q.1 (putDl pkt q.2) :: cws ∧
            t = { v with fab := t.fab, out := t.out, noc := { v.noc with nextId := t.noc.nextId } }) ∧
        (hDmod pkt.header ≠ myModule s → mgmtRoute v (hDmod pkt.header) = none →
          exec (.managementForward port pkt) s =
            .next (modPort v port.val (fun x => { x with discarded := x.discarded + 1 }))) ∧
        (hDmod pkt.header = myModule s → hType pkt.header = 5 → bootOf s (portHalf port.val) ≠ .off →
          exec (.managementForward port pkt) s = .next (takeRequest v (requestOf port.val s.svc.now pkt))) ∧
        (hDmod pkt.header = myModule s → hType pkt.header = 6 → ∀ x,
          s.fab.sent.find? (fun y => y.cls == 3 && y.dmod == hSmod pkt.header) = some x →
          exec (.managementForward port pkt) s = .next { v with fab := { v.fab with sent := v.fab.sent.erase x } })) ∧
      (hDmod pkt.header = myModule s → hType pkt.header = 7 → exec (.managementForward port pkt) s = .next s))

/-- 14 R371, R374, R381, 16 R417: the power-good of a half counts a start where it is the first, boots a set from the
boot bank and makes the half ready with its port operational; where neither bank boots, the half runs its ROM alone;
at a loss of input nothing of the run, of memory or of the energy since the last save stays, but the defect list and
the banks do. 14 R371, R375, R378, 15 R411: once both halves run one set, the agreement gives one maltster the crown
at one epoch, trains rails, seams and stacks and starts the self-test, which loses the scratchpads; a site's failures
wait until every tested site has reported, and are then written with the tick running; the south maltster, where it
hears no north, claims the next epoch. The model's own readings in it: log entries 5, 51, 63. -/
def Obligations.HalvesBootLoseTheirInputAndComeUp : Prop :=
  (∀ (s : State) (h : Half) (time : Time) (x : ImageSet) (c d : Nat),
     (bootOf s h = .off → bootOf s (Half.other h) = .off →
       (bootCheck s h (bootBankOf s h) = .passes x → setAdmits s x (dieOf s (if h = .north then 88 else 89)) = true →
         ∃ t, exec (.powerGood h time) s = .next t ∧ bootOf t h = .ready ∧ nmtOf t h = .operational ∧
           runningBankOf t h = bootBankOf s h % 256 ∧ t.img.running = some x ∧ t.su.startCount = s.su.startCount + 1 ∧
           2 ≤ t.su.step ∧ isReady t (if h = .north then bitMN else bitMS) = true ∧ t.mem = s.mem ∧ t.dl = s.dl ∧
           bootOf t (Half.other h) = .off) ∧
       (bootCheck s h (bootBankOf s h) = .fails c → bootCheck s h (1 - bootBankOf s h) = .fails d →
         ∃ t, exec (.powerGood h time) s = .next t ∧ bootOf t h = .romOnly ∧ nmtOf t h = .operational ∧
           t.img.fallbacks = s.img.fallbacks + 1 ∧ t.img.verifyFails = s.img.verifyFails + 1 + 1 ∧
           t.su.startCount = s.su.startCount + 1 ∧ t.mem = s.mem ∧ t.dl = s.dl)) ∧
     (bootOf s h ≠ .off → exec (.powerGood h time) s = .next s) ∧
     (∃ t, exec .lossOfInput s = .next t ∧ t.mem.cells = [] ∧ t.mem.dark = [] ∧ t.mem.pending = [] ∧
       t.job = State.reset.job ∧ t.clusters = [] ∧ t.su.step = 0 ∧ bootOf t .north = .off ∧ bootOf t .south = .off ∧
       t.power.lifeEnergy = s.power.savedLife ∧ t.power.lifeWraps = s.power.savedWraps ∧
       t.dl.entries = s.dl.entries ∧ t.fuse = s.fuse ∧ t.crown.flashEpoch = s.crown.flashEpoch ∧
       (∀ g b, bankOf t g b = bankOf s g b) ∧ t.out = s.out)) ∧
  (∀ (s : State) (time : Time) (r : TrainingReport) (x y : ImageSet) (n : Site) (fs : List TestFailure),
     (s.su.step = 2 → s.su.northBoot = .ready → s.su.southBoot = .ready → s.power.state ≠ .tripped →
       bootedSet s .north = some x → bootedSet s .south = some y → x.manifest = y.manifest →
       ∃ t, exec (.startUpAgreement time r) s = .next t ∧ 4 ≤ t.su.step ∧ t.crown.epochNorth = t.crown.epochSouth ∧
         t.crown.peerAck = true ∧ crownConfirmed t = true ∧
         t.crown.holder = some (if s.crown.holder = some .south ∨ s.crown.claimSouth.isSome = true then .south else .north) ∧
         isReady t bitRails = true ∧ isReady t bitSeam = true ∧ isReady t bitStack = true ∧ t.job = s.job ∧
         ∀ a, padBase ≤ a → cellGet a t.mem.cells = none) ∧
     (s.su.step = 3 → s.power.state ≠ .tripped →
       ∃ t, exec (.startUpAgreement time r) s = .next t ∧ 4 ≤ t.su.step ∧ t.power.trippedN = false ∧
         t.power.trippedS = false ∧ isReady t bitRails = true ∧ t.crown = s.crown) ∧
     (s.su.step = 4 → s.power.state ≠ .tripped → (testedSites s).contains n.val = true → s.su.tested.contains n.val = false →
       ((∃ m ∈ testedSites s, m ≠ n.val ∧ s.su.tested.contains m = false) →
         exec (.selfTestComplete n fs) s = .next { s with su := { s.su with
           tested := setInsert n.val s.su.tested
           found := s.su.found ++ fs.map (fun f =>
             defEntry (failureEntry f).1 1 n.val (failureEntry f).2 s.su.startCount.toNat) } }) ∧
       ((∀ m ∈ testedSites s, m = n.val ∨ s.su.tested.contains m = true) →
         ∃ t, exec (.selfTestComplete n fs) s = .next t ∧ 6 ≤ t.su.step ∧ t.su.found = [] ∧ t.tick.on = true ∧
           isReady t bitTest = true ∧ isReady t bitDlist = true ∧ t.mem = s.mem)) ∧
     (s.su.step = 2 → s.su.southBoot = .ready → s.crown.holder = none → s.crown.claimSouth = none →
       exec .southMaltsterClaims s = .next { s with crown := { s.crown with
         claimSouth := some (s.crown.flashEpoch + 1), flashEpoch := s.crown.flashEpoch + 1 } }))

/-- 11 R298, 12 R322: a port whose lanes lock down to the lane floor comes up with its peer and delay, one with fewer
is retired; an Ethernet-mode port is up only with all its lanes, and its link goes up and down by itself; a fabric
port beside one on its rim die stays down. 11 R299 to R301, R310: a failed lane leaves the active set and what is
unacknowledged is sent again on the others; below the lane floor the port closes; a closed port that has drained is
retired, one that has not is lost by fault 0Ah; each change of a port goes to the modules of the job; a health update
is counted, its segments are marked, and this module's port at the other end of one does the same. The model's own
readings in it: log entries 5, 42, 73. -/
def Obligations.PortsTrainFailAndRetire : Prop :=
  (∀ (s : State) (p : PortId) (locked : BitVec 8) (peer : BitVec 12) (delay : BitVec 16),
     let r := portAt s p.val
     let active := ~~~(r.failed ||| ~~~locked)
     let lanes := ((List.range 8).filter (fun l => active.getLsbD l)).length
     (4 ≤ s.su.step → r.state = .down → besideEthernet s p.val = true →
       exec (.fabricPortTrained p locked peer delay) s = .next s) ∧
     (4 ≤ s.su.step → r.state = .down → besideEthernet s p.val = false →
       (s.fab.laneFloor.toNat ≤ lanes → ∃ t, exec (.fabricPortTrained p locked peer delay) s = .next t ∧
         (portAt t p.val).state = .up ∧ (portAt t p.val).peer = peer ∧ (portAt t p.val).delay = delay ∧
         (portAt t p.val).active = active ∧ (portAt t p.val).buffer = [] ∧ t.mem = s.mem ∧ t.job = s.job ∧
         ∀ q, q ≠ p.val → portAt t q = portAt s q) ∧
       (lanes < s.fab.laneFloor.toNat → ∃ t, exec (.fabricPortTrained p locked peer delay) s = .next t ∧
         (portAt t p.val).state = .retired ∧ t.fab.retired.getLsbD p.val = true ∧
         (portAt t p.val).peer = peer ∧ (portAt t p.val).delay = delay ∧
         ∀ q, q ≠ p.val → portAt t q = portAt s q)) ∧
     (4 ≤ s.su.step → r.state = .ethDown → s.fab.ethPorts.getLsbD p.val = true → ∃ t, exec (.fabricPortTrained p locked peer delay) s = .next t ∧
       (portAt t p.val).state = if active = 0xFF then .ethUp else .ethDown) ∧
     (s.fab.ethPorts.getLsbD p.val = true → r.state ≠ .retired →
       exec (.ethernetLinkDown p) s = .next (modPort s p.val (fun q => { q with state := .ethDown })) ∧
       exec (.ethernetLinkUp p) s = .next (modPort s p.val (fun q => { q with state := .ethUp }))) ∧
     (s.fab.ethPorts.getLsbD p.val = false →
       exec (.ethernetLinkDown p) s = .next s ∧ exec (.ethernetLinkUp p) s = .next s)) ∧
  (∀ (s : State) (p : PortId) (lane : Fin 8) (m : BitVec 12) (q : PortId) (retired : Bool),
     let r := portAt s p.val
     let active := r.active &&& ~~~(BitVec.ofNat 8 (2 ^ lane.val))
     let n := ((List.range 8).filter (fun l => active.getLsbD l)).length
     let told := fun (t : State) (gone : Bool) => .health p.val gone ∈ t.out.fab ∧
       (∀ j, j ≠ p.val → (portAt t j).state = (portAt s j).state) ∧
       (jobModules s = [] → ∀ j, j ≠ p.val → portAt t j = portAt s j) ∧
       ∀ x ∈ jobModules s, ∃ y ∈ t.fab.sent, y.dmod = x % 4096 ∧ y.cls = 3 ∧ y.k = 2000
     (r.state = .up ∨ r.state = .closed → r.active.getLsbD lane.val = true → 0 < n ∨ r.buffer = [] → s.fab.egress = [] →
       ∃ t, exec (.fabricLaneFailure p lane) s = .next t ∧ (portAt t p.val).active = active ∧
         (portAt t p.val).failed.getLsbD lane.val = true ∧ (portAt t p.val).buffer = r.buffer ∧
         (portAt t p.val).state = (if n < s.fab.laneFloor.toNat then .closed else r.state) ∧
         t.flt.retire = s.flt.retire + 1 ∧ t.job = s.job ∧ t.mem = s.mem ∧
         (∀ x ∈ r.buffer, ∃ l ctl, .codeword p.val l ctl x.words ∈ t.out.fab ∧ active.getLsbD l = true) ∧
         (r.state = .up → n < s.fab.laneFloor.toNat → told t false)) ∧
     (r.active.getLsbD lane.val = false → exec (.fabricLaneFailure p lane) s = .next s) ∧
     (r.state = .closed → s.fab.egress = [] →
       (∃ t, exec (.portDrainComplete p) s = .next t ∧ (portAt t p.val).state = .retired ∧
         t.fab.retired = s.fab.retired ||| BitVec.ofNat 32 (2 ^ p.val) ∧ t.flt.retire = s.flt.retire + 1 ∧ t.job = s.job ∧
         t.mem = s.mem ∧ told t true) ∧
       (s.job.state = .none → ∃ t, exec (.portDrainTimeout p) s = .next t ∧ (portAt t p.val).state = .retired ∧
         t.fab.retired = s.fab.retired ||| BitVec.ofNat 32 (2 ^ p.val) ∧ t.job = s.job ∧ told t true ∧
         Claim.Logged s t (Claim.record s (portUnit p.val) 0x0A 0 15 0 p.val))) ∧
     (r.state ≠ .closed → exec (.portDrainComplete p) s = .next s ∧ exec (.portDrainTimeout p) s = .next s) ∧
     (s.fab.egress = [] → ∃ t, exec (.fabricHealthUpdate m q retired) s = .next t ∧
       t.fab.updates = s.fab.updates + 1 ∧ t.mem = s.mem ∧ t.job = s.job ∧
       (∀ g ∈ portSegments s m.toNat q.val, if retired then g ∈ t.fab.sick else g ∈ t.fab.closedSeg) ∧
       ∀ g ∈ portSegments s m.toNat q.val, ∀ j ∈ segmentPorts s g, (portAt s j).state = .up →
         (portAt t j).state = if retired then .retired else .closed))

/-- 14 R387 to R389: a chunk of the cluster's own image whose digest holds is kept and marked, one whose digest fails
is counted and dropped, one of another session or image is ignored; the whole image with its digest verifies the
cluster; an end-of-pass names what is missing, and the fourth without verification retires the cluster; a repair
request uses a round. The model's own readings in it: log entries 24, 51. -/
def Obligations.ClustersReceiveAndVerifyTheirImage : Prop :=
  ∀ (s : State) (n : Site) (l : Fin 8) (c : Chunk) (x : ImageSet) (r : Receiver) (ix : Nat) (e : ImageEntry)
    (ranges : List (Nat × Nat)),
    let k := 8 * n.val + l.val
    let size := ceilDiv e.length chunkBytes
    s.img.running = some x → tfind s.img.receivers k = some r → clusterImage x (tget 0 s.fuse.siteRev n.val) = some (ix, e) →
    s.img.active = true → s.power.state ≠ .tripped → r.ok = false → r.passes < 4 →
    (c.session ≠ s.img.session ∨ c.image.toNat ≠ ix ∨ c.seq.toNat < e.firstSeq ∨ e.firstSeq + size ≤ c.seq.toNat →
      exec (.firmwareChunkReceived n l c) s = .next s) ∧
    (c.session = s.img.session → c.image.toNat = ix → e.firstSeq ≤ c.seq.toNat → c.seq.toNat < e.firstSeq + size →
      r.bitmap.contains c.seq.toNat = false →
      (shake256 c.data 32 ≠ x.chunks.getD c.seq.toNat [] → ∃ t, exec (.firmwareChunkReceived n l c) s = .next t ∧
        t = { s with img := t.img } ∧ t.img.verifyFails = s.img.verifyFails + 1 ∧ t.img.receivers = s.img.receivers) ∧
      (shake256 c.data 32 = x.chunks.getD c.seq.toNat [] →
        (r.bitmap.length + 1 < size → ∃ t, exec (.firmwareChunkReceived n l c) s = .next t ∧ t = { s with img := t.img } ∧
          tfind t.img.receivers k = some { r with bitmap := setInsert c.seq.toNat r.bitmap
                                                  chunks := tset r.chunks c.seq.toNat c.data }) ∧
        (r.bitmap.length + 1 = size → shake256 (((List.range size).flatMap
            (fun i => tget [] (tset r.chunks c.seq.toNat c.data) (e.firstSeq + i))).take e.length) 64 = e.digest →
          ∃ t v, exec (.firmwareChunkReceived n l c) s = .next t ∧ tfind t.img.receivers k = some v ∧ v.ok = true))) ∧
    (∃ t v, exec (.endOfPassReceived n l s.img.session) s = .next t ∧
      (r.passes < 3 → t = { s with img := t.img } ∧ tfind t.img.receivers k = some v ∧ v.passes = r.passes + 1 ∧
        v.bitmap = r.bitmap ∧ v.missing = (gapRanges r.bitmap e.firstSeq size).take 64) ∧
      (r.passes = 3 → activating s = false →
        (∃ y ∈ t.dl.entries, defCovers y (defEntry 15 3 n.val l.val s.su.startCount.toNat) = true ∨
          defSame y (defEntry 15 3 n.val l.val s.su.startCount.toNat) = true) ∨ 8192 ≤ s.dl.entries.length)) ∧
    (0 < r.passes → ranges ≠ [] → ∃ t v, exec (.repairRequestReceived n l ranges) s = .next t ∧
      tfind t.img.receivers k = some v ∧ v.missing = ranges.take 64 ∧ v.bitmap = r.bitmap ∧
      t.img.rounds = max s.img.rounds r.passes)

/-! ## Faults and upkeep (05, 08, 10, 11, 15) -/

/-- 05 R146, 15 R398, R400, Table 15.2: an array check event is counted at its site and recorded as fault 01h with its
row and column; without a job only that, in capacity mode the job ends, in ride-through mode the frame is abandoned
and replayed with nothing committed. 08 R227, R241, R242, 15 Table 15.2, 14 R392: an uncorrectable word of a running
job in capacity mode ends it, by fault 02h in scratchpad, in an engine's memories and in a router (whose code is the
model's choice), and by 06h in a stack line; in ride-through mode a stack carry line is restored from its partner, and
without one it is fault 08h; no job, no effect. Above 85 degrees refresh halves its interval; a retraining is counted;
a scrub of a line with no upset only moves on. The model's own readings in it: log entries 5, 14, 58, 59, 76. -/
def Obligations.ArrayAndDataErrorsActByModeAndPlace : Prop :=
  (∀ (s : State) (n : Site) (l : Fin 8) (e : Fin 6) (row col : Fin 132) (time : Time),
     let r := siteAt s n.val
     let rec_ (action : Nat) := Claim.record s (.site n) 1 action e.val l.val (row.val + 256 * col.val)
     (r.state = .running ∨ r.state = .slateIdle →
       (s.job.state = .none → ∃ t, exec (.arrayCheckEvent n l e row col time) s = .next t ∧
         (siteAt t n.val).checks = r.checks + 1 ∧ Claim.Logged s t (rec_ 0) ∧ t.job = s.job ∧ t.mem = s.mem ∧
         t.tick = s.tick) ∧
       (s.job.state = .running → rideThrough s = false → ∃ t, exec (.arrayCheckEvent n l e row col time) s = .next t ∧
         Claim.Logged s t (rec_ 3) ∧ Claim.JobEnded s t 3 1) ∧
       (s.job.state = .running → rideThrough s = true → s.tick.recovery.active = false →
         r.rowCounts = [] → r.colCounts = [] → ∃ t, exec (.arrayCheckEvent n l e row col time) s = .next t ∧
         (siteAt t n.val).checks = r.checks + 1 ∧ Claim.Logged s t (rec_ 1) ∧ t.tick.recovery.active = true ∧
         t.tick.abandoned = s.tick.abandoned + 1 ∧ t.tick.issueOn = false ∧ t.tick.committed = s.tick.committed ∧
         t.tick.seq = s.tick.seq ∧ t.mem.pending = [] ∧ t.mem.cells = s.mem.cells ∧ t.mem.dark = s.mem.dark ∧
         t.mem.darkIn = s.mem.darkIn ∧ t.noc.bulk = [] ∧ t.noc.sync = [] ∧ t.job.state = .running)) ∧
     (r.state ≠ .running → r.state ≠ .slateIdle → exec (.arrayCheckEvent n l e row col time) s = .next s)) ∧
  (∀ (s : State) (k : ClusterId) (e : Engine) (x : Site) (word a c off n : Nat) (rim : RimId) (line : Nat) (celsius : Int) (ch : Fin 32),
     let ln := 64 * (a / 64)
     (s.job.state ≠ .running → ∀ place, exec (.dataError place) s = .next s) ∧
     (s.job.state = .running → s.tick.recovery.active = false → rideThrough s = false →
       (∃ t, exec (.dataError (.router x)) s = .next t ∧ Claim.JobEnded s t 3 2) ∧
       (clusterHeld s k.val = true → ∃ t, exec (.dataError (.engineMemory k e word)) s = .next t ∧ Claim.JobEnded s t 3 2) ∧
       (placeOf a = .pad c off → clusterHeld s c = true →
         ∃ t, exec (.dataError (.scratchpad k e a false)) s = .next t ∧ Claim.JobEnded s t 3 2) ∧
       (placeOf a = .stack n off → ∃ t, exec (.dataError (.stack a false)) s = .next t ∧ Claim.JobEnded s t 3 6)) ∧
     (s.job.state = .running → s.tick.recovery.active = false → rideThrough s = true → placeOf a = .stack n off →
       (regionOf s a).isSome = true →
       (s.job.copiesDone = true → s.mem.wf = true →
         ∃ t, exec (.dataError (.stack a false)) s = .next t ∧ t.job = s.job ∧ t.tick = s.tick ∧
           t.flt.haze = s.flt.haze + 1 ∧ t.flt.log = s.flt.log ∧ (stackAt t n).errors = (stackAt s n).errors + 1 ∧
           t.mem.darkIn = s.mem.darkIn ∧ (∀ i, i < 64 → committedByte t (ln + i) = committedByte s (copyKey 1 (ln + i))) ∧
           ∀ key, key < ln ∨ ln + 64 ≤ key → committedByte t key = committedByte s key) ∧
       (s.job.copiesDone = false → ∃ t, exec (.dataError (.stack a false)) s = .next t ∧ Claim.JobEnded s t 3 8) ∧
       ∃ t, exec (.dataError (.stack a true)) s = .next t ∧ Claim.JobEnded s t 3 8) ∧
     exec (.stackRefresh rim celsius) s = .next (modStack s rim.val (fun r => { r with
       refresh := if 85 < celsius then 1 else 0 })) ∧
     exec (.stackRetrain rim ch) s = .next (modStack s rim.val (fun r => { r with retrains := r.retrains + 1 })) ∧
     ((stackAt s rim.val).populated ≤ line → exec (.patrolScrub rim line) s = .next s) ∧
     (line < (stackAt s rim.val).populated → rideThrough s = false →
       upsetsIn s.mem 0 (rim.val * stackWindow + 64 * line) 64 = [] →
       ∃ t, exec (.patrolScrub rim line) s = .next t ∧ t.mem = s.mem ∧ t.job = s.job ∧ t.flt = s.flt ∧
         stackAt t rim.val = { stackAt s rim.val with scrubAt := line }))

/-- 15 R398, R403, 01 R30, 08 R229: a failed compute domain makes its site forward-only and a failed seam domain makes
it dark and its links lost, with fault 04h or 05h recorded and the unit in the defect list; in ride-through mode a
slate takes the logical chiplet over and the remap table names it; a failed stack channel is fault 07h, which ends a
running job. 15 R403, R404, 08 R238: a slate's release lets its reload begin; the reload brings every line that a
backing copy of the chiplet's carry holds to the slate, from the first of its copies that is good, and the takeover is
over; a line with no good copy is fault 08h, which ends the job. The model's own readings in it: log entries 15, 60,
67. -/
def Obligations.FailedDomainsAreRetiredAndTheirCarryReloaded : Prop :=
  (∀ (s : State) (n : Site) (d : RimId) (ch : Fin 64) (m slate : Nat), s.dl.entries.length < 8192 →
     (((siteAt s n.val).state = .running ∨ (siteAt s n.val).state = .slateIdle) → (siteAt s n.val).logical = none →
       (∃ t, exec (.computeDomainFailure n) s = .next t ∧ (siteAt t n.val).state = .forwardOnly ∧
         Claim.Logged s t (Claim.record s (.site n) 4 0 15 0 0) ∧ t.job = s.job ∧ t.mem = s.mem ∧
         ∃ x ∈ t.dl.entries, defUnit x = n.val ∧ (defKind x = 3 ∨ defKind x = 4)) ∧
       (∃ t, exec (.seamDomainFailure n) s = .next t ∧ (siteAt t n.val).state = .dark ∧
         Claim.Logged s t (Claim.record s (.site n) 5 0 15 0 0) ∧ t.job = s.job ∧ t.mem = s.mem ∧
         (∀ key ∈ siteLinks n.val, (linkAt t key).state = .retired) ∧
         ∃ x ∈ t.dl.entries, defUnit x = n.val ∧ defKind x = 3)) ∧
     ((siteAt s n.val).state = .running → (siteAt s n.val).logical = some m → s.job.state = .running →
       rideThrough s = true → chooseSlate s n.val = some slate → slate < 72 →
       ∃ t, exec (.computeDomainFailure n) s = .next t ∧ (siteAt t n.val).state = .forwardOnly ∧
         (siteAt t n.val).logical = none ∧ (siteAt t slate).state = .running ∧ (siteAt t slate).logical = some m ∧
         chipletSite t m = some slate ∧ t.topo.remapGen = s.topo.remapGen + 1 ∧ t.tick.recovery.active = true ∧
         t.mem.pending = [] ∧ t.tick.committed = s.tick.committed ∧ t.job.state = .running ∧
         Claim.Logged s t (Claim.record s (.site n) 4 2 15 0 0)) ∧
     (stackRetired s d.val = false → s.job.state = .running →
       ∃ t, exec (.stackChannelFailure d ch) s = .next t ∧ t.job.endReason = 3 ∧ t.job.endFault = 7 ∧ t.mem.pending = [] ∧
         t.tick.committed = s.tick.committed ∧ Claim.Logged s t (Claim.record s (.rim d) 7 3 15 0 0) ∧
         t.flt.retire = s.flt.retire + 1)) ∧
  (∀ (s : State) (n : Site) (x : Takeover),
     exec (.slateReleaseDone n) s = .next (setTakeovers s (s.tick.recovery.takeovers.map (fun y =>
       if y.slate = n.val then { y with released := true } else y))) ∧
     (s.tick.recovery.takeovers.find? (fun y => y.slate == n.val && y.released) = some x →
       ((∀ line ∈ backedLines s x.chiplet, goodCopy s [1, 2] line ≠ none) →
         ∃ t, exec (.slateReloadDone n) s = .next t ∧
           t.tick.recovery.takeovers = s.tick.recovery.takeovers.filter (fun y => y.slate != n.val) ∧
           t.job = s.job ∧ t.topo = s.topo ∧ t.tick.committed = s.tick.committed ∧
           (∀ key, s.mem.wf = true → key < padBase → cellGet key t.mem.cells = cellGet key s.mem.cells ∧
             cellGet key t.mem.dark = cellGet key s.mem.dark) ∧
           (s.mem.wf = true → chipletSite s x.chiplet = some n.val → ∀ line ∈ backedLines s x.chiplet, ∀ c,
             goodCopy s [1, 2] line = some c → ∀ i, i < 64 →
             readByte t (64 * line + i) = committedByte s (copyKey c (64 * line + i)))) ∧
       ((∃ line ∈ backedLines s x.chiplet, goodCopy s [1, 2] line = none) → s.job.state = .running →
         ∃ t, exec (.slateReloadDone n) s = .next t ∧ t.job.endReason = 3 ∧ t.job.endFault = 8 ∧ t.mem.pending = [] ∧
           t.tick.committed = s.tick.committed ∧ t.tick.issueOn = false)) ∧
     (s.tick.recovery.takeovers.find? (fun y => y.slate == n.val && y.released) = none →
       exec (.slateReloadDone n) s = .next s))

/-- 15 R396, Table 15.1, 08 R227, R242, 14 R392: a channel past its haze threshold is retired by its kind: a lane as
its failure does, a seam direction and a port closed, a memory unit in the list for the next start unless it is there;
a patrol scrub counts and heals what it corrects and restores what it cannot from the mirror; refresh halves its
interval above 85 degrees; a retraining is counted. The model's own readings in it: log entries 15, 24, 58, 79. -/
def Obligations.HazeThresholdsRetireAndUpkeepIsCounted : Prop :=
  ∀ (s : State) (d : SeamDir) (lane : Fin 68) (p : PortId) (fl : Fin 8) (n : Site) (l : Fin 8) (bank : Fin 64) (row : Nat)
    (rim : RimId) (line : Nat) (celsius : Int) (ch : Fin 32) (group : Nat) (sch : Fin 64),
    let later := fun (c : HazeChannel) (unit kind detail : Nat) =>
      let e := defEntry kind 2 unit detail 0
      let known := s.dl.entries.any (fun x => defCovers x e || defSame x e ||
        (isSpared kind && defKind x == kind && defUnit x == defUnit e && defectName x == defectName e))
      (known = true → exec (.hazeThresholdExceeded c) s = .next s) ∧
      (known = false → s.dl.entries.length < 8192 → ∃ t, exec (.hazeThresholdExceeded c) s = .next t ∧
        defEntry kind 2 unit detail s.su.startCount.toNat ∈ t.dl.entries ∧ t.flt.retire = s.flt.retire + 1 ∧
        t.job = s.job ∧ t.mem = s.mem ∧ t.topo = s.topo ∧ t.noc = s.noc)
    exec (.hazeThresholdExceeded (.seamLane d lane)) s = .next (laneFails s (dirKey d) lane.val) ∧
    exec (.seamLaneFailure d lane) s = .next (laneFails s (dirKey d) lane.val) ∧
    exec (.hazeThresholdExceeded (.fabricLane p fl)) s = .next (portLaneFails s p.val fl.val) ∧
    exec (.fabricLaneFailure p fl) s = .next (portLaneFails s p.val fl.val) ∧
    ((linkAt s (dirKey d)).state = .full ∨ (linkAt s (dirKey d)).state = .narrow →
      ∃ t, exec (.hazeThresholdExceeded (.seamDirection d)) s = .next t ∧ (linkAt t (dirKey d)).state = .closed ∧
        t.mem = s.mem ∧ t.job = s.job ∧ ∀ k, k ≠ dirKey d → linkAt t k = linkAt s k) ∧
    ((linkAt s (dirKey d)).state ≠ .full → (linkAt s (dirKey d)).state ≠ .narrow →
      exec (.hazeThresholdExceeded (.seamDirection d)) s = .next s) ∧
    ((portAt s p.val).state = .up → s.fab.egress = [] →
      ∃ t, exec (.hazeThresholdExceeded (.fabricPort p)) s = .next t ∧ (portAt t p.val).state = .closed ∧
        .health p.val false ∈ t.out.fab ∧ t.mem = s.mem ∧ t.job = s.job) ∧
    ((portAt s p.val).state ≠ .up → exec (.hazeThresholdExceeded (.fabricPort p)) s = .next s) ∧
    later (.bankRow n l bank row) n.val 8 (l.val + 8 * bank.val + 1024 * (row % 2 ^ 15)) ∧
    later (.cacheGroup n group) n.val 9 (group % 2 ^ 20) ∧
    later (.stackChannel rim sch) (72 + rim.val) 12 sch.val ∧
    ((stackAt s rim.val).populated ≤ line → exec (.patrolScrub rim line) s = .next s) ∧
    (line < (stackAt s rim.val).populated →
      let x := scrubbed s rim.val line
      let us := if markBank s (copyKey x.1 (64 * x.2.2)) = x.2.1 then upsetsIn s.mem x.1 (64 * x.2.2) 64 else []
      let fixed := us.filter (fun u => u.2 == .single)
      let bad := us.filter (fun u => u.2 == .double)
      ∃ t, exec (.patrolScrub rim line) s = .next t ∧ t.job = s.job ∧ t.flt.log = s.flt.log ∧
        t.flt.haze = s.flt.haze + BitVec.ofNat 64 fixed.length ∧
        stackAt t rim.val = { stackAt s rim.val with
          scrubAt := line, corrected := (stackAt s rim.val).corrected + BitVec.ofNat 64 fixed.length
          errors := (stackAt s rim.val).errors + BitVec.ofNat 32 bad.length } ∧
        (∀ u ∈ fixed, tfind t.mem.upset u.1 = none) ∧
        (bad = [] → t.mem.cells = s.mem.cells ∧ t.mem.dark = s.mem.dark) ∧
        (bad ≠ [] → x.1 = 0 → (∃ m off, placeOf (64 * x.2.2) = .stack m off) → s.mem.wf = true → hasCopies s (64 * x.2.2) = true → goodCopy s [1] x.2.2 = some 1 →
          ∀ i, i < 64 → committedByte t (64 * x.2.2 + i) = committedByte s (copyKey 1 (64 * x.2.2 + i)))) ∧
    exec (.stackRefresh rim celsius) s = .next (modStack s rim.val (fun r => { r with
      refresh := if 85 < celsius then 1 else 0 })) ∧
    exec (.stackRetrain rim ch) s = .next (modStack s rim.val (fun r => { r with retrains := r.retrains + 1 }))

/-- 10 R283, R287: a flit whose words are all good or corrected is received, with its corrections counted as haze and
against their lane; one with an uncorrectable word is retried, and the ninth bad reception in a row loses the
direction by fault 09h. 10 R285, Table 10.6: a failed lane of a full direction is replaced by a spare while one is
left, else the direction goes narrow; of a narrow one, it closes; one that drains on fewer than 16 lanes of its narrow
set is lost; the lane is in the defect list and recorded, and the pause ends by itself. 10 R286, R287, Table 10.7: a
unit that learns a direction's state keeps it in its health mask and in no other unit's, with a mark on one that was
closed while another still is; a closed direction that has drained is retired, and one that has not drained in time is
lost by fault 09h. The model's own readings in it: log entries 43, 61, 76. -/
def Obligations.SeamLinksCorrectFailOverAndRetire : Prop :=
  (∀ (s : State) (d : SeamDir) (us : List (BitVec 72)) (lane : Option (Fin 68)),
     let key := dirKey d
     let r := linkAt s key
     let n := (us.filter (fun u => upsetKind u == .single)).length
     r.state ≠ .down → r.state ≠ .retired →
     ((∀ u ∈ us, upsetKind u ≠ .double) → ∃ t, exec (.seamFlitReceived d us lane) s = .next t ∧
       linkAt t key = { r with
         corrected := r.corrected + BitVec.ofNat 32 n, laneFixed := (linkAt t key).laneFixed, inRow := 0 } ∧
       (∀ l, lane = some l → tget 0 (linkAt t key).laneFixed l.val = tget 0 r.laneFixed l.val + n) ∧
       (lane = none → (linkAt t key).laneFixed = r.laneFixed) ∧
       t.flt.haze = s.flt.haze + BitVec.ofNat 64 (n + if 0 < r.inRow then 1 else 0) ∧
       t.job = s.job ∧ t.mem = s.mem ∧ t.flt.log = s.flt.log ∧ ∀ k, k ≠ key → linkAt t k = linkAt s k) ∧
     ((∃ u ∈ us, upsetKind u = .double) → r.inRow < 8 → lane = none →
       ∃ t, exec (.seamFlitReceived d us lane) s = .next t ∧
         linkAt t key = { r with retries := r.retries + 1, inRow := r.inRow + 1, traced := [] } ∧
         t = { s with noc := t.noc } ∧ ∀ k, k ≠ key → linkAt t k = linkAt s k) ∧
     ((∃ u ∈ us, upsetKind u = .double) → r.inRow = 8 → s.job.state = .none →
       ∃ t, exec (.seamFlitReceived d us lane) s = .next t ∧ (linkAt t key).state = .retired ∧
         Claim.Logged s t (Claim.record s (keyUnit key) 9 0 15 0 (key % 16)))) ∧
  (∀ (s : State) (d : SeamDir) (lane : Fin 68),
     let key := dirKey d
     let r := linkAt s key
     (r.failed.contains lane.val = false → r.state = .full ∨ r.state = .narrow →
       ∃ t, exec (.seamLaneFailure d lane) s = .next t ∧ t.job = s.job ∧ t.mem = s.mem ∧
         (linkAt t key).failed = setInsert lane.val r.failed ∧
         Claim.Logged s t (Claim.record s (keyUnit key) 0 0 15 0
           (bitsAt (defEntry 1 2 (unitNumber (keyUnit key)) (key % 16 + 16 * lane.val) s.su.startCount.toNat).toNat 16 16)) ∧
         t.flt.retire = s.flt.retire + 1 ∧
         (r.state = .full → r.spares < 4 → (linkAt t key).state = .full ∧ (linkAt t key).spares = r.spares + 1 ∧
           (linkAt t key).paused = true) ∧
         (r.state = .full → 4 ≤ r.spares → (linkAt t key).state = .narrow ∧ (linkAt t key).paused = true) ∧
         (r.state = .narrow → (linkAt t key).state = .closed) ∧
         ∀ k, k ≠ key → linkAt t k = linkAt s k) ∧
     (r.failed.contains lane.val = false → r.state = .closed →
       let q := { r with failed := setInsert lane.val r.failed }
       (16 ≤ q.drainLanes → ∃ t, exec (.seamLaneFailure d lane) s = .next t ∧ (linkAt t key).state = .closed ∧
         (linkAt t key).failed = q.failed ∧ t.job = s.job ∧ t.mem = s.mem) ∧
       (q.drainLanes < 16 → s.job.state = .none → ∃ t, exec (.seamLaneFailure d lane) s = .next t ∧
         (linkAt t key).state = .retired ∧ t.flt.faults = s.flt.faults + 1 + 1)) ∧
     (r.failed.contains lane.val = true ∨ r.state = .down ∨ r.state = .retired →
       exec (.seamLaneFailure d lane) s = .next s) ∧
     (r.paused = true → exec (.linkPauseEnd d) s = .next (modLink s key (fun q => { q with paused := false }))) ∧
     (r.paused = false → exec (.linkPauseEnd d) s = .next s)) ∧
  (∀ (s : State) (d : SeamDir) (u : UnitId),
     let key := dirKey d
     let r := linkAt s key
     (∀ n, maskUnit u = some n →
       ∃ t, exec (.seamHealthUpdate u d) s = .next t ∧ t = { s with noc := { s.noc with masks := t.noc.masks } } ∧
       ((maskOf t n).contains key = true ↔ r.state = .retired ∨ r.state = .down) ∧
       ((maskOf t n).contains (closedMark + key) = true ↔ r.state = .closed) ∧
       ((maskOf t n).contains (lateMark + key) = true ↔ r.state = .retired ∧ someClosed (maskOf t n) = true ∧
         ((maskOf s n).contains (closedMark + key) = true ∨ (maskOf s n).contains (lateMark + key) = true)) ∧
       ∀ v, v ≠ n → maskOf t v = maskOf s v) ∧
     (maskUnit u = none → exec (.seamHealthUpdate u d) s = .next s) ∧
     (r.state = .closed → ∃ t, exec (.seamDrainComplete d) s = .next t ∧ (linkAt t key).state = .retired ∧ t.job = s.job ∧
       t.mem = s.mem ∧ t.flt.retire = s.flt.retire + 1 ∧ t.flt.faults = s.flt.faults + 1) ∧
     (r.state = .closed → s.job.state = .none → ∃ t, exec (.seamDrainTimeout d) s = .next t ∧
       (linkAt t key).state = .retired ∧ t.job = s.job ∧ t.mem = s.mem ∧
       Claim.Logged s t (Claim.record s (keyUnit key) 9 0 15 0 (key % 16))) ∧
     (r.state ≠ .closed → exec (.seamDrainComplete d) s = .next s ∧ exec (.seamDrainTimeout d) s = .next s))

/-- 11 R295 to R297: a good codeword in order moves the receiver's sequence number on, is acknowledged, and adds its
words to the stream, from which each whole packet stands in the port's buffers; a bad one is counted and answered by a
NAK, with everything after it discarded until it comes again; an acknowledgement frees the retry buffer, and a NAK
sends all of it again; a codeword on a lane that is not active is nothing. 11 R298, R304, R305, R315, 02 R59, R60,
Table 2.7: a packet on no circuit of the job, or of a reserved type, is discarded and counted; one at its destination
is judged by its frame tag: an earlier frame's is discarded and counted stale, one of the frame after this waits for
it, one of neither is a fault, and one of this frame is taken, a write as panel packets to the homes of its lines,
acknowledged when they all are; an illegal line returns ERR. A module without an ID, or a port that is not up or
draining, takes none. The model's own readings in it: log entries 41, 44, 71. -/
def Obligations.CodewordsAreAcknowledgedAndPacketsJudged : Prop :=
  (∀ (s : State) (p : PortId) (c : Codeword) (k : FabPacket) (n : Nat),
     let r := portAt s p.val
     let seen := { r with symbols := (portAt s p.val).symbols, lane := nextLane r }
     (r.active.getLsbD c.lane.val = false → exec (.fabricCodewordReceived p c) s = .next s) ∧
     (r.state = .up ∨ r.state = .closed → r.active.getLsbD c.lane.val = true → c.corrected = 0 → fixedWords c = 0 →
       (codewordBad c = true → r.discard = false → (r.badInRow.filter (fun l => l == c.lane.val)).length < 2 →
         ∃ t, exec (.fabricCodewordReceived p c) s = .next t ∧ t = { s with fab := t.fab, out := t.out } ∧
           portAt t p.val = { seen with badCw := r.badCw + 1, discard := true, resends := 0
                                        badInRow := r.badInRow ++ [c.lane.val] } ∧
           t.out.fab = s.out.fab ++ [.codeword p.val (nextLane r) (controlField r 0 true 0x7F 1) (fillWords [])] ∧
           ∀ q, q ≠ p.val → portAt t q = portAt s q) ∧
       (codewordBad c = false → bitAt c.control.toNat 25 = false → s.fab.egress = [] →
         let buf := if bitAt c.control.toNat 24 then ackedBuffer r.buffer (BitVec.ofNat 12 (cfld c 12 12)) else r.buffer
         let ws := if r.rxWords.isEmpty then (dataWords c).drop (cfld c 46 7) else r.rxWords ++ dataWords c
         (cfld c 53 2 = 0 → BitVec.ofNat 12 (cfld c 0 12) = r.rxSeq + 1 → r.discard = false →
           ∃ t ctl, exec (.fabricCodewordReceived p c) s = .next t ∧ t = { s with fab := t.fab, out := t.out } ∧
             (portAt t p.val).rxSeq = r.rxSeq + 1 ∧ (portAt t p.val).buffer = buf ∧
             (portAt t p.val).xoff = BitVec.ofNat 20 (cfld c 26 20) ∧ (portAt t p.val).badCw = r.badCw ∧
             t.out.fab = s.out.fab ++ [.codeword p.val (nextLane r) ctl (fillWords [])] ∧
             bitsAt ctl.toNat 12 12 = (r.rxSeq + 1).toNat ∧ bitAt ctl.toNat 24 = true ∧ bitAt ctl.toNat 25 = false ∧
             (ws = packetWords k ++ List.replicate n idleWord → k.payload.length = 8 * payloadWords k.header →
               k.header.extractLsb' 0 64 ≠ idleWord →
               (portAt t p.val).arrived = r.arrived ++ [k] ∧ (portAt t p.val).rxWords = []) ∧
             ∀ q, q ≠ p.val → portAt t q = portAt s q) ∧
         (cfld c 53 2 = 1 → ∃ t, exec (.fabricCodewordReceived p c) s = .next t ∧ t = { s with fab := t.fab } ∧
           (portAt t p.val).buffer = buf ∧ (portAt t p.val).rxSeq = r.rxSeq ∧ (portAt t p.val).arrived = r.arrived ∧
           ∀ q, q ≠ p.val → portAt t q = portAt s q)) ∧
       (codewordBad c = false → bitAt c.control.toNat 24 = false → bitAt c.control.toNat 25 = true → cfld c 53 2 = 1 →
         s.fab.egress = [] → ∃ t ls, exec (.fabricCodewordReceived p c) s = .next t ∧ ls.length = r.buffer.length ∧
           t.out.fab = s.out.fab ++ List.zipWith (fun (x : Nat × BitVec 100) y => .codeword p.val x.1 x.2 y.words) ls r.buffer ∧
           (∀ x ∈ List.zip ls r.buffer, bitsAt x.1.2.toNat 0 12 = x.2.seq.toNat ∧ r.active.getLsbD x.1.1 = true) ∧
           (portAt t p.val).buffer = r.buffer ∧ (portAt t p.val).retrying = true))) ∧
  (∀ (s u : State) (p : PortId) (time : Time) (k : FabPacket),
     let h := k.header
     let tag := (frameTag s + 65536 - hTag h) % 65536
     let here := circuitAt s (hCirc h) ≠ none ∧ endsHere s h = true ∧ hType h < 5
     let rim := 72 + portRim p.val
     (arrive s p.val k = none ∨ (5 ≤ hType h ∧ hType h ≤ 7) → exec (.fabricPacketReceived p time k) s = .next s) ∧
     (s.fab.moduleId = 0 ∨ ((portAt s p.val).state ≠ .up ∧ (portAt s p.val).state ≠ .closed) → arrive s p.val k = none) ∧
     ((portAt s p.val).state = .up ∨ (portAt s p.val).state = .closed → s.fab.moduleId ≠ 0 →
       (portAt s p.val).arrived = [] → (portAt s p.val).discard = false → arrive s p.val k = some s) ∧
     (arrive s p.val k = some u →
       (8 ≤ hType h ∨ (hType h < 5 ∧ circuitAt s (hCirc h) = none) → exec (.fabricPacketReceived p time k) s =
         .next (judgeXoff (modPort u p.val (fun r => { r with discarded := r.discarded + 1 })) p.val)) ∧
       (here → (0 < tag ∧ tag < 32768) ∨ (tag = 0 ∧ takesFrames s = false) → exec (.fabricPacketReceived p time k) s =
         .next (judgeXoff { u with tick := { u.tick with stale := u.tick.stale + 1 } } p.val)) ∧
       (here → tag = 65535 → exec (.fabricPacketReceived p time k) s =
         .next (judgeXoff { u with fab := { u.fab with held := u.fab.held ++ [(p.val, k)] } } p.val)) ∧
       (here → 32768 ≤ tag → tag < 65535 → s.job.state = .running → ∃ t, exec (.fabricPacketReceived p time k) s = .next t ∧
         t.job.endReason = 3 ∧ t.job.endFault = 0x12 ∧ t.mem.pending = [] ∧ t.tick.committed = s.tick.committed) ∧
       (here → tag = 0 → takesFrames s = true → hType h = 0 →
         ((∃ l ∈ packetLines k, lineOk s false l.1 = false) → exec (.fabricPacketReceived p time k) s =
           .next (judgeXoff (sendBare u (ackPacket u h (hScl h) (hSeng h) true)) p.val)) ∧
         ((∀ l ∈ packetLines k, lineOk s false l.1 = true ∧ passage s rim (homeUnit s rim l.1) (homeLocal l.1) ≠ .unreachable) →
           k.payload.length = 64 * (hLines h + 1) →
           ∃ t, exec (.fabricPacketReceived p time k) s = .next t ∧ t.mem = s.mem ∧
             t.fab.inbound = s.fab.inbound ++ [{ id := s.noc.nextId, port := p.val, header := h
                                                 left := ceilDiv (hLines h + 1) 4, err := false }] ∧
             ∀ l ∈ packetLines k, ∃ b ∈ t.noc.bulk, b.kind = .write ∧ b.k = 1024 + s.noc.nextId ∧ b.way.at_ = rim ∧
               ∃ j, j < b.lines ∧ b.addr + 64 * j = l.1 ∧ (b.data.drop (64 * j)).take 64 = l.2))))

/-! ## Serving (12) -/

/-- 12 R328 to R331, Table 12.6: a valid SUBMIT of a serving job is recorded once, a repeat sends the last reply
again, and one that cannot be taken is rejected with the first reason that applies: no serving job, a bad body, a
sequence too long, a full table; a reply is a datagram of hop limit 64 with its checksum, to the port that the client
used; a datagram that is not valid is only counted, one for another address is not this port's, and a port without an
address is silent. 12 R331, R332, R335, R339: a PROMPT adds the tokens that were missing and queues the request when
all are there; an ACK moves the acknowledged index on; a CANCEL waits for the batcher; unacknowledged tokens are sent
again, and after eight resends a live request ends with DONE 04h; a request still collecting at its timeout and one
queued too long are rejected with 05h and 03h. The model's own readings in it: log entries 47, 75. -/
def Obligations.RequestsAreRecordedAdvancedAndEnded : Prop :=
  (∀ (s : State) (d : Datagram) (m : Message) (time : Time) (pl : ServingPlan) (r : Request),
     let u := { s with svc := { s.svc with now := max s.svc.now time } }
     let w := learnHop u d
     let mine := answers s d.port.val = true ∧ ownAddress s d.port.val d.ip.dst = true
     let key : RequestKey := { src := d.ip.src, rid := m.rid }
     let rejected (code : Nat) : Prop := ∃ t b, exec (.submit d time) s = .next t ∧
       b = messageBytes 7 m.rid (rejectBody code) ∧
       t.out.udp = s.out.udp ++ [.datagram d.port.val
         { mac := d.mac, src := portAddr s d.port.val, dst := d.ip.src, hopLimit := 64, trafficClass := 0, flowLabel := 0 }
         s.svc.udpPort d.srcPort (udpChecksum (portAddr s d.port.val) d.ip.src s.svc.udpPort d.srcPort b) b] ∧
       t.svc.rejected = s.svc.rejected + 1 ∧ t.svc.received = s.svc.received + 1 ∧
       t = { s with svc := t.svc, out := t.out } ∧ ∀ q ∈ t.svc.requests, q.live = true → q ∈ s.svc.requests
     (¬ mine → exec (.submit d time) s = .next u) ∧
     (mine → (allowedSource s d.ip.src = false ∨ d.ip.ext = true ∨ d.dstPort ≠ s.svc.udpPort ∨ checksumOk d = false ∨
         d.payload.length < 16 ∨ fieldAt d.payload 0 2 ≠ 0x504C ∨ fieldAt d.payload 2 1 ≠ 1 ∨
         d.payload.length ≠ 16 + fieldAt d.payload 4 2 ∨ clientType (fieldAt d.payload 3 1) = false) →
       exec (.submit d time) s = .next { u with svc := { u.svc with discarded := s.svc.discarded + 1 } }) ∧
     (mine → validMessage s d = some m → m.type ≠ 1 → exec (.submit d time) s = .next u) ∧
     (mine → validMessage s d = some m → m.type = 1 →
       (findRequest s key = none →
         (takesRequests s = false → rejected 4) ∧
         (takesRequests s = true → servingPlan s = some pl → submitOk m.body = false → rejected 1) ∧
         (takesRequests s = true → servingPlan s = some pl → submitOk m.body = true →
           256 * pl.tpp < (newRequest u m).plen + (newRequest u m).maxNew → rejected 2) ∧
         (takesRequests s = true → servingPlan s = some pl → submitOk m.body = true →
           (newRequest u m).plen + (newRequest u m).maxNew ≤ 256 * pl.tpp →
           4096 ≤ (s.svc.requests.filter Request.live).length → rejected 3) ∧
         (takesRequests s = true → servingPlan s = some pl → submitOk m.body = true →
           (newRequest u m).plen + (newRequest u m).maxNew ≤ 256 * pl.tpp →
           (s.svc.requests.filter Request.live).length < 4096 → exec (.submit d time) s = .next { w with svc := { w.svc with
             received := s.svc.received + 1, requests := s.svc.requests ++ [newRequest w m] } })) ∧
       (findRequest s key = some r → r.live = true → r.lastType ≠ 0 → exec (.submit d time) s = .next
         (sendMsg w r.port r.key.src r.lastType.toNat r.key.rid r.lastBody)) ∧
       (findRequest s key = some r → r.live = true → r.lastType = 0 → exec (.submit d time) s = .next w))) ∧
  (∀ (s : State) (d : Datagram) (m : Message) (r : Request) (k : RequestKey),
     let w := learnHop s d
     let first := fieldAt m.body 0 4
     let n := fieldAt m.body 4 4
     let p := addPrompt r.prompt first (bodyWords m.body 8)
     let mine (type : Nat) : Prop := answers s d.port.val = true ∧ ownAddress s d.port.val d.ip.dst = true ∧
       validMessage s d = some m ∧ m.type = type
     let ended (cmd : Instr) (type : Nat) (body : List Byte) : Prop := ∃ t, exec cmd s = .next t ∧
       t.out.udp = s.out.udp ++ [messageOut s r.port k.src type k.rid body] ∧
       t = { s with svc := t.svc, out := t.out } ∧ ∀ q ∈ t.svc.requests, q.key = k → q.stage = .ended ∧ q.slot = none
     (k = { src := d.ip.src, rid := m.rid } → findRequest s k = some r → r.key = k →
       (mine 8 → r.stage = .collecting → 1 ≤ n → n ≤ 2281 → m.body.length = 8 + 4 * n → first + n ≤ r.plen →
         exec (.prompt d) s = .next (modRequest w k (fun q => { q with
           prompt := p, stage := if p.length = r.plen then .queued else .collecting }))) ∧
       (mine 8 → r.stage ≠ .collecting → exec (.prompt d) s = .next w) ∧
       (mine 4 → m.body.length = 4 → r.acked < first → first ≤ r.sent → exec (.ack d) s = .next
         (modRequest w k (fun q => { q with acked := first, resends := 0 }))) ∧
       (mine 4 → m.body.length ≠ 4 ∨ first ≤ r.acked ∨ r.sent < first → exec (.ack d) s = .next w) ∧
       (mine 5 → exec (.cancel d) s = .next (modRequest w k (fun q => { q with cancel := q.live || q.cancel })))) ∧
     (findRequest s k = some r → r.key = k →
       (r.sent ≤ r.acked → exec (.tokensResend k) s = .next s) ∧
       (r.acked < r.sent → r.resends < 8 → ∃ t, exec (.tokensResend k) s = .next t ∧
         t.out.udp = s.out.udp ++ (tokenMessages r.acked ((r.tokens.take r.sent).drop r.acked)).map (fun b =>
           messageOut s r.port k.src 3 k.rid b) ∧
         t.svc.requests = s.svc.requests.map (fun q => if q.key == k then { q with
           resends := q.resends + 1, lastType := 3
           lastBody := ((tokenMessages r.acked ((r.tokens.take r.sent).drop r.acked)).getLast?).getD q.lastBody } else q) ∧
         t = { s with svc := t.svc, out := t.out }) ∧
       (r.acked < r.sent → 8 ≤ r.resends → r.live = true →
         ended (.tokensResend k) 6 (doneBody 4 r.tokens.length)) ∧
       (r.stage = .collecting → ended (.promptTimeout k) 7 (rejectBody 5)) ∧
       (r.stage ≠ .collecting → exec (.promptTimeout k) s = .next s) ∧
       (r.stage = .queued → ended (.queueWaitExpiry k) 7 (rejectBody 3)) ∧
       (r.stage ≠ .queued → exec (.queueWaitExpiry k) s = .next s)))

/-- 12 R327, R334 to R337: the batcher admits a queued request to the lowest vacant slot where the capacity and the
free frames allow; a page that the next frame reads takes the first free frame, and a page written out gives its frame
back; a sampler adds the token that it draws, with its retirement; past the cutoff nothing more is served in the
frame. The model's own readings in it: log entries 45, 46, 75. -/
def Obligations.TheBatchIsAdmittedPagedAndSampled : Prop :=
  ∀ (s : State) (pl : ServingPlan) (r : Request) (slot : Nat) (page : Fin 256) (f tok : Nat) (rest : List Nat),
    servingPlan s = some pl →
    let reach (n a len : Nat) : Prop := ∀ x, a ≤ x → x < a + len →
      passage s (72 + n) (homeUnit s (72 + n) x) (homeLocal x) ≠ .unreachable
    let ph := 1 - framePhase s
    let x := slotAt s slot
    let given (w : Word) : Request := { r with
      tokens := r.tokens ++ [w], fresh := r.fresh + 1
      retire := if r.stop.contains w = true ∨ w = pl.eos then some 0
                else if r.maxNew ≤ r.tokens.length + 1 then some 1 else r.retire }
    (mayServe s = false → exec .batchAdmission s = .next s ∧ exec (.pageIn slot page) s = .next s ∧
      exec (.pageOut slot page) s = .next s ∧ exec (.sampleToken slot) s = .next s) ∧
    (mayServe s = true →
      (s.svc.requests = [r] → r.stage = .queued → r.cancel = false → vacantSlot s pl = some slot →
        roomFor s pl ph slot r = true → reach pl.batcher (entryAddr pl ph 0) (64 * pl.slots) →
        reach pl.batcher (tokenAddr pl 0) (4 * pl.slots * pl.chunk) → ∃ t, exec .batchAdmission s = .next t ∧ t.tick = s.tick ∧ t.job = s.job ∧
          findRequest t r.key = some { r with stage := .running, slot := some slot, phase := ph, pos := 0 } ∧
          (slotAt t slot).key = some r.key ∧ (slotAt t slot).phase = ph) ∧
      (slot < pl.slots → slotRequest s x = some r → s.svc.freeFr = f :: rest → x.phase ≠ framePhase s →
        page.val < nextPages pl r → tfind x.pages page.val = none →
        reach (pageStack pl slot page.val) (frameAddr f) pageBytes →
        reach (pageStack pl slot page.val) (pageEntry pl slot page.val) 4 → ∃ t, exec (.pageIn slot page) s = .next t ∧
          t.svc.freeFr = rest ∧ slotAt t slot = { x with pages := tset x.pages page.val f } ∧ t.tick = s.tick ∧
          t.job = s.job ∧ t.svc.requests = s.svc.requests ∧ ∀ j, j ≠ slot → slotAt t j = slotAt s j) ∧
      (slot < pl.slots → tfind x.pages page.val = some f → x.phase ≠ framePhase s ∨ x.ntok = 0 →
        reach (pageStack pl slot page.val) (pageHome pl slot page.val) pageBytes →
        reach (pageStack pl slot page.val) (pageEntry pl slot page.val) 4 → ∃ t, exec (.pageOut slot page) s = .next t ∧ t.svc.freeFr = s.svc.freeFr ++ [f] ∧
          slotAt t slot = { x with pages := terase x.pages page.val } ∧ t.tick = s.tick ∧ t.job = s.job ∧
          t.svc.requests = s.svc.requests ∧ ∀ j, j ≠ slot → slotAt t j = slotAt s j) ∧
      (slot < pl.slots → slotRequest s x = some r → x.phase ≠ framePhase s → r.retire = none → 0 < r.pos →
        r.pos = r.total → (∀ n, n < 16 → reach n (tokenAddr pl slot) 4) →
        (drawToken (logitRow s pl slot) r.temp r.topp r.topk (drawU r) = .token tok →
          ∃ t, exec (.sampleToken slot) s = .next t ∧ findRequest t r.key = some (given (BitVec.ofNat 32 tok)) ∧
            t.tick = s.tick ∧ t.job = s.job) ∧
        (drawToken (logitRow s pl slot) r.temp r.topp r.topk (drawU r) = .noValue → exec (.sampleToken slot) s =
          .next (modRequest s r.key (fun q => { q with retire := some 5 }))) ∧
        (drawToken (logitRow s pl slot) r.temp r.topp r.topk (drawU r) = .unstated →
          ∃ t w, exec (.sampleToken slot) s = .next t ∧ findRequest t r.key = some (given w)))) ∧
    (jobRunning s = true → exec .serviceCutoff s = .next { s with svc := { s.svc with cutoff := true } })

/-- 12 R328 to R330, 11 R322, Table 11.13: a port with an address answers a solicitation of its own address and an
echo request for it, and no other; what comes behind extension headers, or as a fragment, is counted as discarded;
what an Ethernet-mode port does not take is counted by its kind, and a datagram by its validity. The model's own
readings in it: log entries 5, 75. -/
def Obligations.EthernetPortsAnswerAndCountDiscards : Prop :=
  ∀ (s : State) (p : PortId) (ip : Ip6In) (target : BitVec 128) (mac : BitVec 48) (data : List Byte) (reason : DiscardReason)
    (d : Datagram),
    let mine := answers s p.val = true ∧ ownAddress s p.val ip.dst = true
    let counted := { s with svc := { s.svc with discarded := s.svc.discarded + 1 } }
    let header : Ip6Out := { mac := mac, src := portAddr s p.val, dst := ip.src, hopLimit := 64, trafficClass := 0, flowLabel := 0 }
    (mine → ip.ext = false →
      exec (.neighbourSolicitation p ip mac (portAddr s p.val)) s = .next { s with out := { s.out with
        udp := s.out.udp ++ [.advertisement p.val header (portAddr s p.val) (tget 0 s.fuse.mac p.val)] } } ∧
      (target ≠ portAddr s p.val → exec (.neighbourSolicitation p ip mac target) s = .next s) ∧
      exec (.echoRequest p ip mac data) s = .next { s with out := { s.out with
        udp := s.out.udp ++ [.echoReply p.val header data] } }) ∧
    (mine → ip.ext = true → exec (.neighbourSolicitation p ip mac target) s = .next counted ∧
      exec (.echoRequest p ip mac data) s = .next counted) ∧
    (¬ mine → exec (.neighbourSolicitation p ip mac target) s = .next s ∧ exec (.echoRequest p ip mac data) s = .next s) ∧
    (s.fab.ethPorts.getLsbD p.val = true →
      (reason = .vlanOrEtherType ∨ reason = .pause ∨ reason = .oversized → exec (.discardedDatagram p reason) s =
        .next (modPort s p.val (fun r => { r with frames := r.frames + 1 }))) ∧
      exec (.discardedDatagram p .icmpOther) s = .next counted ∧
      (d.port = p → answers s p.val = true → ownAddress s p.val d.ip.dst = true →
        (validMessage s d = none → exec (.discardedDatagram p (.datagram d)) s = .next counted) ∧
        (validMessage s d ≠ none → exec (.discardedDatagram p (.datagram d)) s = .next s)) ∧
      (d.port ≠ p ∨ answers s p.val = false ∨ ownAddress s p.val d.ip.dst = false →
        exec (.discardedDatagram p (.datagram d)) s = .next s)) ∧
    (s.fab.ethPorts.getLsbD p.val = false → exec (.discardedDatagram p reason) s = .next s)
end

