-- ==== Sys2Proof/Laws/Table.lean ====
section
/-!
SUPPORT. The laws of sparse tables: what a record reads as after one was set, erased or changed.
-/
namespace Sys2Proof.Machine

set_option Elab.async false

theorem tfind_tset_self {α : Type} (t : Tbl α) (k : Nat) (v : α) : tfind (tset t k v) k = some v := by
  induction t with
  | nil => simp [tset, tfind]
  | cons x r ih =>
    obtain ⟨a, w⟩ := x
    simp only [tset]
    split
    · simp [tfind]
    · split
      · simp [tfind]
      · rename_i h1 h2
        have h3 : ¬ a = k := fun e => h2 e.symm
        simp [tfind, h3, ih]

theorem tfind_tset_ne {α : Type} (t : Tbl α) (k j : Nat) (v : α) (h : j ≠ k) :
    tfind (tset t k v) j = tfind t j := by
  have hk : ¬ k = j := fun e => h e.symm
  induction t with
  | nil => simp [tset, tfind, hk]
  | cons x r ih =>
    obtain ⟨a, w⟩ := x
    simp only [tset]
    split
    · simp [tfind, hk]
    · split
      · rename_i h1 h2
        have h3 : ¬ a = j := fun e => hk (h2.trans e)
        simp [tfind, hk, h3]
      · simp only [tfind, ih]

@[simp] theorem tget_tset_self {α : Type} (d : α) (t : Tbl α) (k : Nat) (v : α) : tget d (tset t k v) k = v := by
  simp [tget, tfind_tset_self]

theorem tget_tset_ne {α : Type} (d : α) (t : Tbl α) (k j : Nat) (v : α) (h : j ≠ k) :
    tget d (tset t k v) j = tget d t j := by
  simp [tget, tfind_tset_ne t k j v h]

theorem tget_tset {α : Type} (d : α) (t : Tbl α) (k j : Nat) (v : α) :
    tget d (tset t k v) j = if j = k then v else tget d t j := by
  split
  · rename_i h
    subst h
    simp
  · rename_i h
    exact tget_tset_ne d t k j v h

theorem tset_tset {α : Type} (t : Tbl α) (k : Nat) (v w : α) : tset (tset t k v) k w = tset t k w := by
  induction t with
  | nil => simp [tset]
  | cons x r ih =>
    obtain ⟨a, u⟩ := x
    simp only [tset]
    split
    · rename_i h
      simp [tset]
    · split
      · simp [tset]
      · rename_i h1 h2
        simp [tset, h1, h2, ih]

theorem tfind_terase_self {α : Type} (t : Tbl α) (k : Nat) : tfind (terase t k) k = none := by
  induction t with
  | nil => simp [terase, tfind]
  | cons x r ih =>
    obtain ⟨a, w⟩ := x
    simp only [terase]
    split
    · exact ih
    · rename_i h
      simp [tfind, h, ih]

theorem tfind_terase_ne {α : Type} (t : Tbl α) (k j : Nat) (h : j ≠ k) : tfind (terase t k) j = tfind t j := by
  induction t with
  | nil => simp [terase, tfind]
  | cons x r ih =>
    obtain ⟨a, w⟩ := x
    simp only [terase]
    split
    · rename_i e
      have h3 : ¬ a = j := fun e2 => h (e2.symm.trans e)
      simp [tfind, h3, ih]
    · simp only [tfind, ih]

theorem tfind_tmap {α β : Type} (t : Tbl α) (f : Nat → α → β) (k : Nat) :
    tfind (tmap t f) k = (tfind t k).map (f k) := by
  induction t with
  | nil => simp [tmap, tfind]
  | cons x r ih =>
    obtain ⟨a, w⟩ := x
    simp only [tmap, List.map_cons, tfind]
    split
    · rename_i h
      simp [h]
    · exact ih

end Sys2Proof.Machine
end

