-- ==== Sys2Proof/Laws/State.lean ====
section
/-!
SUPPORT. One lemma per named update and per field that it leaves, and what each record reads as after an update.
-/
namespace Sys2Proof.Machine
open Sys2Proof

set_option Elab.async false

/-! `modSite` -/
@[simp] theorem modSite_pending (s : State) (n : Nat) (f : SiteRec → SiteRec) : (modSite s n f).pending = s.pending := rfl
@[simp] theorem modSite_freeCtr (s : State) (n : Nat) (f : SiteRec → SiteRec) : (modSite s n f).freeCtr = s.freeCtr := rfl
@[simp] theorem modSite_out (s : State) (n : Nat) (f : SiteRec → SiteRec) : (modSite s n f).out = s.out := rfl
@[simp] theorem modSite_fuse (s : State) (n : Nat) (f : SiteRec → SiteRec) : (modSite s n f).fuse = s.fuse := rfl
@[simp] theorem modSite_su (s : State) (n : Nat) (f : SiteRec → SiteRec) : (modSite s n f).su = s.su := rfl
@[simp] theorem modSite_img (s : State) (n : Nat) (f : SiteRec → SiteRec) : (modSite s n f).img = s.img := rfl
@[simp] theorem modSite_dl (s : State) (n : Nat) (f : SiteRec → SiteRec) : (modSite s n f).dl = s.dl := rfl
@[simp] theorem modSite_attNorth (s : State) (n : Nat) (f : SiteRec → SiteRec) : (modSite s n f).attNorth = s.attNorth := rfl
@[simp] theorem modSite_attSouth (s : State) (n : Nat) (f : SiteRec → SiteRec) : (modSite s n f).attSouth = s.attSouth := rfl
@[simp] theorem modSite_crown (s : State) (n : Nat) (f : SiteRec → SiteRec) : (modSite s n f).crown = s.crown := rfl
@[simp] theorem modSite_can (s : State) (n : Nat) (f : SiteRec → SiteRec) : (modSite s n f).can = s.can := rfl
@[simp] theorem modSite_dict (s : State) (n : Nat) (f : SiteRec → SiteRec) : (modSite s n f).dict = s.dict := rfl
@[simp] theorem modSite_job (s : State) (n : Nat) (f : SiteRec → SiteRec) : (modSite s n f).job = s.job := rfl
@[simp] theorem modSite_tick (s : State) (n : Nat) (f : SiteRec → SiteRec) : (modSite s n f).tick = s.tick := rfl
@[simp] theorem modSite_clusters (s : State) (n : Nat) (f : SiteRec → SiteRec) : (modSite s n f).clusters = s.clusters := rfl
@[simp] theorem modSite_mem (s : State) (n : Nat) (f : SiteRec → SiteRec) : (modSite s n f).mem = s.mem := rfl
@[simp] theorem modSite_stacks (s : State) (n : Nat) (f : SiteRec → SiteRec) : (modSite s n f).casks = s.casks := rfl
@[simp] theorem modSite_noc (s : State) (n : Nat) (f : SiteRec → SiteRec) : (modSite s n f).noc = s.noc := rfl
@[simp] theorem modSite_fab (s : State) (n : Nat) (f : SiteRec → SiteRec) : (modSite s n f).fab = s.fab := rfl
@[simp] theorem modSite_power (s : State) (n : Nat) (f : SiteRec → SiteRec) : (modSite s n f).power = s.power := rfl
@[simp] theorem modSite_svc (s : State) (n : Nat) (f : SiteRec → SiteRec) : (modSite s n f).svc = s.svc := rfl
@[simp] theorem modSite_flt (s : State) (n : Nat) (f : SiteRec → SiteRec) : (modSite s n f).flt = s.flt := rfl
/-! `modStack` -/
@[simp] theorem modStack_pending (s : State) (n : Nat) (f : StackRec → StackRec) : (modStack s n f).pending = s.pending := rfl
@[simp] theorem modStack_freeCtr (s : State) (n : Nat) (f : StackRec → StackRec) : (modStack s n f).freeCtr = s.freeCtr := rfl
@[simp] theorem modStack_out (s : State) (n : Nat) (f : StackRec → StackRec) : (modStack s n f).out = s.out := rfl
@[simp] theorem modStack_fuse (s : State) (n : Nat) (f : StackRec → StackRec) : (modStack s n f).fuse = s.fuse := rfl
@[simp] theorem modStack_su (s : State) (n : Nat) (f : StackRec → StackRec) : (modStack s n f).su = s.su := rfl
@[simp] theorem modStack_img (s : State) (n : Nat) (f : StackRec → StackRec) : (modStack s n f).img = s.img := rfl
@[simp] theorem modStack_dl (s : State) (n : Nat) (f : StackRec → StackRec) : (modStack s n f).dl = s.dl := rfl
@[simp] theorem modStack_attNorth (s : State) (n : Nat) (f : StackRec → StackRec) : (modStack s n f).attNorth = s.attNorth := rfl
@[simp] theorem modStack_attSouth (s : State) (n : Nat) (f : StackRec → StackRec) : (modStack s n f).attSouth = s.attSouth := rfl
@[simp] theorem modStack_crown (s : State) (n : Nat) (f : StackRec → StackRec) : (modStack s n f).crown = s.crown := rfl
@[simp] theorem modStack_can (s : State) (n : Nat) (f : StackRec → StackRec) : (modStack s n f).can = s.can := rfl
@[simp] theorem modStack_dict (s : State) (n : Nat) (f : StackRec → StackRec) : (modStack s n f).dict = s.dict := rfl
@[simp] theorem modStack_job (s : State) (n : Nat) (f : StackRec → StackRec) : (modStack s n f).job = s.job := rfl
@[simp] theorem modStack_tick (s : State) (n : Nat) (f : StackRec → StackRec) : (modStack s n f).tick = s.tick := rfl
@[simp] theorem modStack_topo (s : State) (n : Nat) (f : StackRec → StackRec) : (modStack s n f).topo = s.topo := rfl
@[simp] theorem modStack_clusters (s : State) (n : Nat) (f : StackRec → StackRec) : (modStack s n f).clusters = s.clusters := rfl
@[simp] theorem modStack_mem (s : State) (n : Nat) (f : StackRec → StackRec) : (modStack s n f).mem = s.mem := rfl
@[simp] theorem modStack_noc (s : State) (n : Nat) (f : StackRec → StackRec) : (modStack s n f).noc = s.noc := rfl
@[simp] theorem modStack_fab (s : State) (n : Nat) (f : StackRec → StackRec) : (modStack s n f).fab = s.fab := rfl
@[simp] theorem modStack_power (s : State) (n : Nat) (f : StackRec → StackRec) : (modStack s n f).power = s.power := rfl
@[simp] theorem modStack_svc (s : State) (n : Nat) (f : StackRec → StackRec) : (modStack s n f).svc = s.svc := rfl
@[simp] theorem modStack_flt (s : State) (n : Nat) (f : StackRec → StackRec) : (modStack s n f).flt = s.flt := rfl
/-! `modCluster` -/
@[simp] theorem modCluster_pending (s : State) (k : Nat) (f : Cluster → Cluster) : (modCluster s k f).pending = s.pending := rfl
@[simp] theorem modCluster_freeCtr (s : State) (k : Nat) (f : Cluster → Cluster) : (modCluster s k f).freeCtr = s.freeCtr := rfl
@[simp] theorem modCluster_out (s : State) (k : Nat) (f : Cluster → Cluster) : (modCluster s k f).out = s.out := rfl
@[simp] theorem modCluster_fuse (s : State) (k : Nat) (f : Cluster → Cluster) : (modCluster s k f).fuse = s.fuse := rfl
@[simp] theorem modCluster_su (s : State) (k : Nat) (f : Cluster → Cluster) : (modCluster s k f).su = s.su := rfl
@[simp] theorem modCluster_img (s : State) (k : Nat) (f : Cluster → Cluster) : (modCluster s k f).img = s.img := rfl
@[simp] theorem modCluster_dl (s : State) (k : Nat) (f : Cluster → Cluster) : (modCluster s k f).dl = s.dl := rfl
@[simp] theorem modCluster_attNorth (s : State) (k : Nat) (f : Cluster → Cluster) : (modCluster s k f).attNorth = s.attNorth := rfl
@[simp] theorem modCluster_attSouth (s : State) (k : Nat) (f : Cluster → Cluster) : (modCluster s k f).attSouth = s.attSouth := rfl
@[simp] theorem modCluster_crown (s : State) (k : Nat) (f : Cluster → Cluster) : (modCluster s k f).crown = s.crown := rfl
@[simp] theorem modCluster_can (s : State) (k : Nat) (f : Cluster → Cluster) : (modCluster s k f).can = s.can := rfl
@[simp] theorem modCluster_dict (s : State) (k : Nat) (f : Cluster → Cluster) : (modCluster s k f).dict = s.dict := rfl
@[simp] theorem modCluster_job (s : State) (k : Nat) (f : Cluster → Cluster) : (modCluster s k f).job = s.job := rfl
@[simp] theorem modCluster_tick (s : State) (k : Nat) (f : Cluster → Cluster) : (modCluster s k f).tick = s.tick := rfl
@[simp] theorem modCluster_topo (s : State) (k : Nat) (f : Cluster → Cluster) : (modCluster s k f).topo = s.topo := rfl
@[simp] theorem modCluster_mem (s : State) (k : Nat) (f : Cluster → Cluster) : (modCluster s k f).mem = s.mem := rfl
@[simp] theorem modCluster_stacks (s : State) (k : Nat) (f : Cluster → Cluster) : (modCluster s k f).casks = s.casks := rfl
@[simp] theorem modCluster_noc (s : State) (k : Nat) (f : Cluster → Cluster) : (modCluster s k f).noc = s.noc := rfl
@[simp] theorem modCluster_fab (s : State) (k : Nat) (f : Cluster → Cluster) : (modCluster s k f).fab = s.fab := rfl
@[simp] theorem modCluster_power (s : State) (k : Nat) (f : Cluster → Cluster) : (modCluster s k f).power = s.power := rfl
@[simp] theorem modCluster_svc (s : State) (k : Nat) (f : Cluster → Cluster) : (modCluster s k f).svc = s.svc := rfl
@[simp] theorem modCluster_flt (s : State) (k : Nat) (f : Cluster → Cluster) : (modCluster s k f).flt = s.flt := rfl
/-! `modEngine` -/
@[simp] theorem modEngine_pending (s : State) (k e : Nat) (f : EngineRec → EngineRec) : (modEngine s k e f).pending = s.pending := rfl
@[simp] theorem modEngine_freeCtr (s : State) (k e : Nat) (f : EngineRec → EngineRec) : (modEngine s k e f).freeCtr = s.freeCtr := rfl
@[simp] theorem modEngine_out (s : State) (k e : Nat) (f : EngineRec → EngineRec) : (modEngine s k e f).out = s.out := rfl
@[simp] theorem modEngine_fuse (s : State) (k e : Nat) (f : EngineRec → EngineRec) : (modEngine s k e f).fuse = s.fuse := rfl
@[simp] theorem modEngine_su (s : State) (k e : Nat) (f : EngineRec → EngineRec) : (modEngine s k e f).su = s.su := rfl
@[simp] theorem modEngine_img (s : State) (k e : Nat) (f : EngineRec → EngineRec) : (modEngine s k e f).img = s.img := rfl
@[simp] theorem modEngine_dl (s : State) (k e : Nat) (f : EngineRec → EngineRec) : (modEngine s k e f).dl = s.dl := rfl
@[simp] theorem modEngine_attNorth (s : State) (k e : Nat) (f : EngineRec → EngineRec) : (modEngine s k e f).attNorth = s.attNorth := rfl
@[simp] theorem modEngine_attSouth (s : State) (k e : Nat) (f : EngineRec → EngineRec) : (modEngine s k e f).attSouth = s.attSouth := rfl
@[simp] theorem modEngine_crown (s : State) (k e : Nat) (f : EngineRec → EngineRec) : (modEngine s k e f).crown = s.crown := rfl
@[simp] theorem modEngine_can (s : State) (k e : Nat) (f : EngineRec → EngineRec) : (modEngine s k e f).can = s.can := rfl
@[simp] theorem modEngine_dict (s : State) (k e : Nat) (f : EngineRec → EngineRec) : (modEngine s k e f).dict = s.dict := rfl
@[simp] theorem modEngine_job (s : State) (k e : Nat) (f : EngineRec → EngineRec) : (modEngine s k e f).job = s.job := rfl
@[simp] theorem modEngine_tick (s : State) (k e : Nat) (f : EngineRec → EngineRec) : (modEngine s k e f).tick = s.tick := rfl
@[simp] theorem modEngine_topo (s : State) (k e : Nat) (f : EngineRec → EngineRec) : (modEngine s k e f).topo = s.topo := rfl
@[simp] theorem modEngine_mem (s : State) (k e : Nat) (f : EngineRec → EngineRec) : (modEngine s k e f).mem = s.mem := rfl
@[simp] theorem modEngine_stacks (s : State) (k e : Nat) (f : EngineRec → EngineRec) : (modEngine s k e f).casks = s.casks := rfl
@[simp] theorem modEngine_noc (s : State) (k e : Nat) (f : EngineRec → EngineRec) : (modEngine s k e f).noc = s.noc := rfl
@[simp] theorem modEngine_fab (s : State) (k e : Nat) (f : EngineRec → EngineRec) : (modEngine s k e f).fab = s.fab := rfl
@[simp] theorem modEngine_power (s : State) (k e : Nat) (f : EngineRec → EngineRec) : (modEngine s k e f).power = s.power := rfl
@[simp] theorem modEngine_svc (s : State) (k e : Nat) (f : EngineRec → EngineRec) : (modEngine s k e f).svc = s.svc := rfl
@[simp] theorem modEngine_flt (s : State) (k e : Nat) (f : EngineRec → EngineRec) : (modEngine s k e f).flt = s.flt := rfl
/-! `mapClusters` -/
@[simp] theorem mapClusters_pending (s : State) (f : Nat → Cluster → Cluster) : (mapClusters s f).pending = s.pending := rfl
@[simp] theorem mapClusters_freeCtr (s : State) (f : Nat → Cluster → Cluster) : (mapClusters s f).freeCtr = s.freeCtr := rfl
@[simp] theorem mapClusters_out (s : State) (f : Nat → Cluster → Cluster) : (mapClusters s f).out = s.out := rfl
@[simp] theorem mapClusters_fuse (s : State) (f : Nat → Cluster → Cluster) : (mapClusters s f).fuse = s.fuse := rfl
@[simp] theorem mapClusters_su (s : State) (f : Nat → Cluster → Cluster) : (mapClusters s f).su = s.su := rfl
@[simp] theorem mapClusters_img (s : State) (f : Nat → Cluster → Cluster) : (mapClusters s f).img = s.img := rfl
@[simp] theorem mapClusters_dl (s : State) (f : Nat → Cluster → Cluster) : (mapClusters s f).dl = s.dl := rfl
@[simp] theorem mapClusters_attNorth (s : State) (f : Nat → Cluster → Cluster) : (mapClusters s f).attNorth = s.attNorth := rfl
@[simp] theorem mapClusters_attSouth (s : State) (f : Nat → Cluster → Cluster) : (mapClusters s f).attSouth = s.attSouth := rfl
@[simp] theorem mapClusters_crown (s : State) (f : Nat → Cluster → Cluster) : (mapClusters s f).crown = s.crown := rfl
@[simp] theorem mapClusters_can (s : State) (f : Nat → Cluster → Cluster) : (mapClusters s f).can = s.can := rfl
@[simp] theorem mapClusters_dict (s : State) (f : Nat → Cluster → Cluster) : (mapClusters s f).dict = s.dict := rfl
@[simp] theorem mapClusters_job (s : State) (f : Nat → Cluster → Cluster) : (mapClusters s f).job = s.job := rfl
@[simp] theorem mapClusters_tick (s : State) (f : Nat → Cluster → Cluster) : (mapClusters s f).tick = s.tick := rfl
@[simp] theorem mapClusters_topo (s : State) (f : Nat → Cluster → Cluster) : (mapClusters s f).topo = s.topo := rfl
@[simp] theorem mapClusters_mem (s : State) (f : Nat → Cluster → Cluster) : (mapClusters s f).mem = s.mem := rfl
@[simp] theorem mapClusters_stacks (s : State) (f : Nat → Cluster → Cluster) : (mapClusters s f).casks = s.casks := rfl
@[simp] theorem mapClusters_noc (s : State) (f : Nat → Cluster → Cluster) : (mapClusters s f).noc = s.noc := rfl
@[simp] theorem mapClusters_fab (s : State) (f : Nat → Cluster → Cluster) : (mapClusters s f).fab = s.fab := rfl
@[simp] theorem mapClusters_power (s : State) (f : Nat → Cluster → Cluster) : (mapClusters s f).power = s.power := rfl
@[simp] theorem mapClusters_svc (s : State) (f : Nat → Cluster → Cluster) : (mapClusters s f).svc = s.svc := rfl
@[simp] theorem mapClusters_flt (s : State) (f : Nat → Cluster → Cluster) : (mapClusters s f).flt = s.flt := rfl
/-! `setFlags` -/
@[simp] theorem setFlags_pending (s : State) (k task : Nat) (f : Flags) : (setFlags s k task f).pending = s.pending := rfl
@[simp] theorem setFlags_freeCtr (s : State) (k task : Nat) (f : Flags) : (setFlags s k task f).freeCtr = s.freeCtr := rfl
@[simp] theorem setFlags_out (s : State) (k task : Nat) (f : Flags) : (setFlags s k task f).out = s.out := rfl
@[simp] theorem setFlags_fuse (s : State) (k task : Nat) (f : Flags) : (setFlags s k task f).fuse = s.fuse := rfl
@[simp] theorem setFlags_su (s : State) (k task : Nat) (f : Flags) : (setFlags s k task f).su = s.su := rfl
@[simp] theorem setFlags_img (s : State) (k task : Nat) (f : Flags) : (setFlags s k task f).img = s.img := rfl
@[simp] theorem setFlags_dl (s : State) (k task : Nat) (f : Flags) : (setFlags s k task f).dl = s.dl := rfl
@[simp] theorem setFlags_attNorth (s : State) (k task : Nat) (f : Flags) : (setFlags s k task f).attNorth = s.attNorth := rfl
@[simp] theorem setFlags_attSouth (s : State) (k task : Nat) (f : Flags) : (setFlags s k task f).attSouth = s.attSouth := rfl
@[simp] theorem setFlags_crown (s : State) (k task : Nat) (f : Flags) : (setFlags s k task f).crown = s.crown := rfl
@[simp] theorem setFlags_can (s : State) (k task : Nat) (f : Flags) : (setFlags s k task f).can = s.can := rfl
@[simp] theorem setFlags_dict (s : State) (k task : Nat) (f : Flags) : (setFlags s k task f).dict = s.dict := rfl
@[simp] theorem setFlags_job (s : State) (k task : Nat) (f : Flags) : (setFlags s k task f).job = s.job := rfl
@[simp] theorem setFlags_tick (s : State) (k task : Nat) (f : Flags) : (setFlags s k task f).tick = s.tick := rfl
@[simp] theorem setFlags_topo (s : State) (k task : Nat) (f : Flags) : (setFlags s k task f).topo = s.topo := rfl
@[simp] theorem setFlags_mem (s : State) (k task : Nat) (f : Flags) : (setFlags s k task f).mem = s.mem := rfl
@[simp] theorem setFlags_stacks (s : State) (k task : Nat) (f : Flags) : (setFlags s k task f).casks = s.casks := rfl
@[simp] theorem setFlags_noc (s : State) (k task : Nat) (f : Flags) : (setFlags s k task f).noc = s.noc := rfl
@[simp] theorem setFlags_fab (s : State) (k task : Nat) (f : Flags) : (setFlags s k task f).fab = s.fab := rfl
@[simp] theorem setFlags_power (s : State) (k task : Nat) (f : Flags) : (setFlags s k task f).power = s.power := rfl
@[simp] theorem setFlags_svc (s : State) (k task : Nat) (f : Flags) : (setFlags s k task f).svc = s.svc := rfl
@[simp] theorem setFlags_flt (s : State) (k task : Nat) (f : Flags) : (setFlags s k task f).flt = s.flt := rfl
/-! `putSlot` -/
@[simp] theorem putSlot_pending (s : State) (k e slot group : Nat) (ps : List DWord) : (putSlot s k e slot group ps).pending = s.pending := rfl
@[simp] theorem putSlot_freeCtr (s : State) (k e slot group : Nat) (ps : List DWord) : (putSlot s k e slot group ps).freeCtr = s.freeCtr := rfl
@[simp] theorem putSlot_out (s : State) (k e slot group : Nat) (ps : List DWord) : (putSlot s k e slot group ps).out = s.out := rfl
@[simp] theorem putSlot_fuse (s : State) (k e slot group : Nat) (ps : List DWord) : (putSlot s k e slot group ps).fuse = s.fuse := rfl
@[simp] theorem putSlot_su (s : State) (k e slot group : Nat) (ps : List DWord) : (putSlot s k e slot group ps).su = s.su := rfl
@[simp] theorem putSlot_img (s : State) (k e slot group : Nat) (ps : List DWord) : (putSlot s k e slot group ps).img = s.img := rfl
@[simp] theorem putSlot_dl (s : State) (k e slot group : Nat) (ps : List DWord) : (putSlot s k e slot group ps).dl = s.dl := rfl
@[simp] theorem putSlot_attNorth (s : State) (k e slot group : Nat) (ps : List DWord) : (putSlot s k e slot group ps).attNorth = s.attNorth := rfl
@[simp] theorem putSlot_attSouth (s : State) (k e slot group : Nat) (ps : List DWord) : (putSlot s k e slot group ps).attSouth = s.attSouth := rfl
@[simp] theorem putSlot_crown (s : State) (k e slot group : Nat) (ps : List DWord) : (putSlot s k e slot group ps).crown = s.crown := rfl
@[simp] theorem putSlot_can (s : State) (k e slot group : Nat) (ps : List DWord) : (putSlot s k e slot group ps).can = s.can := rfl
@[simp] theorem putSlot_dict (s : State) (k e slot group : Nat) (ps : List DWord) : (putSlot s k e slot group ps).dict = s.dict := rfl
@[simp] theorem putSlot_job (s : State) (k e slot group : Nat) (ps : List DWord) : (putSlot s k e slot group ps).job = s.job := rfl
@[simp] theorem putSlot_tick (s : State) (k e slot group : Nat) (ps : List DWord) : (putSlot s k e slot group ps).tick = s.tick := rfl
@[simp] theorem putSlot_topo (s : State) (k e slot group : Nat) (ps : List DWord) : (putSlot s k e slot group ps).topo = s.topo := rfl
@[simp] theorem putSlot_mem (s : State) (k e slot group : Nat) (ps : List DWord) : (putSlot s k e slot group ps).mem = s.mem := rfl
@[simp] theorem putSlot_stacks (s : State) (k e slot group : Nat) (ps : List DWord) : (putSlot s k e slot group ps).casks = s.casks := rfl
@[simp] theorem putSlot_noc (s : State) (k e slot group : Nat) (ps : List DWord) : (putSlot s k e slot group ps).noc = s.noc := rfl
@[simp] theorem putSlot_fab (s : State) (k e slot group : Nat) (ps : List DWord) : (putSlot s k e slot group ps).fab = s.fab := rfl
@[simp] theorem putSlot_power (s : State) (k e slot group : Nat) (ps : List DWord) : (putSlot s k e slot group ps).power = s.power := rfl
@[simp] theorem putSlot_svc (s : State) (k e slot group : Nat) (ps : List DWord) : (putSlot s k e slot group ps).svc = s.svc := rfl
@[simp] theorem putSlot_flt (s : State) (k e slot group : Nat) (ps : List DWord) : (putSlot s k e slot group ps).flt = s.flt := rfl
/-! `freeSlot` -/
@[simp] theorem freeSlot_pending (s : State) (k e slot : Nat) : (freeSlot s k e slot).pending = s.pending := rfl
@[simp] theorem freeSlot_freeCtr (s : State) (k e slot : Nat) : (freeSlot s k e slot).freeCtr = s.freeCtr := rfl
@[simp] theorem freeSlot_out (s : State) (k e slot : Nat) : (freeSlot s k e slot).out = s.out := rfl
@[simp] theorem freeSlot_fuse (s : State) (k e slot : Nat) : (freeSlot s k e slot).fuse = s.fuse := rfl
@[simp] theorem freeSlot_su (s : State) (k e slot : Nat) : (freeSlot s k e slot).su = s.su := rfl
@[simp] theorem freeSlot_img (s : State) (k e slot : Nat) : (freeSlot s k e slot).img = s.img := rfl
@[simp] theorem freeSlot_dl (s : State) (k e slot : Nat) : (freeSlot s k e slot).dl = s.dl := rfl
@[simp] theorem freeSlot_attNorth (s : State) (k e slot : Nat) : (freeSlot s k e slot).attNorth = s.attNorth := rfl
@[simp] theorem freeSlot_attSouth (s : State) (k e slot : Nat) : (freeSlot s k e slot).attSouth = s.attSouth := rfl
@[simp] theorem freeSlot_crown (s : State) (k e slot : Nat) : (freeSlot s k e slot).crown = s.crown := rfl
@[simp] theorem freeSlot_can (s : State) (k e slot : Nat) : (freeSlot s k e slot).can = s.can := rfl
@[simp] theorem freeSlot_dict (s : State) (k e slot : Nat) : (freeSlot s k e slot).dict = s.dict := rfl
@[simp] theorem freeSlot_job (s : State) (k e slot : Nat) : (freeSlot s k e slot).job = s.job := rfl
@[simp] theorem freeSlot_tick (s : State) (k e slot : Nat) : (freeSlot s k e slot).tick = s.tick := rfl
@[simp] theorem freeSlot_topo (s : State) (k e slot : Nat) : (freeSlot s k e slot).topo = s.topo := rfl
@[simp] theorem freeSlot_mem (s : State) (k e slot : Nat) : (freeSlot s k e slot).mem = s.mem := rfl
@[simp] theorem freeSlot_stacks (s : State) (k e slot : Nat) : (freeSlot s k e slot).casks = s.casks := rfl
@[simp] theorem freeSlot_noc (s : State) (k e slot : Nat) : (freeSlot s k e slot).noc = s.noc := rfl
@[simp] theorem freeSlot_fab (s : State) (k e slot : Nat) : (freeSlot s k e slot).fab = s.fab := rfl
@[simp] theorem freeSlot_power (s : State) (k e slot : Nat) : (freeSlot s k e slot).power = s.power := rfl
@[simp] theorem freeSlot_svc (s : State) (k e slot : Nat) : (freeSlot s k e slot).svc = s.svc := rfl
@[simp] theorem freeSlot_flt (s : State) (k e slot : Nat) : (freeSlot s k e slot).flt = s.flt := rfl
/-! `setStaging` -/
@[simp] theorem setStaging_pending (s : State) (r : StagedRec) (x : Staging) : (setStaging s r x).pending = s.pending := rfl
@[simp] theorem setStaging_freeCtr (s : State) (r : StagedRec) (x : Staging) : (setStaging s r x).freeCtr = s.freeCtr := rfl
@[simp] theorem setStaging_out (s : State) (r : StagedRec) (x : Staging) : (setStaging s r x).out = s.out := rfl
@[simp] theorem setStaging_fuse (s : State) (r : StagedRec) (x : Staging) : (setStaging s r x).fuse = s.fuse := rfl
@[simp] theorem setStaging_su (s : State) (r : StagedRec) (x : Staging) : (setStaging s r x).su = s.su := rfl
@[simp] theorem setStaging_img (s : State) (r : StagedRec) (x : Staging) : (setStaging s r x).img = s.img := rfl
@[simp] theorem setStaging_dl (s : State) (r : StagedRec) (x : Staging) : (setStaging s r x).dl = s.dl := rfl
@[simp] theorem setStaging_attNorth (s : State) (r : StagedRec) (x : Staging) : (setStaging s r x).attNorth = s.attNorth := rfl
@[simp] theorem setStaging_attSouth (s : State) (r : StagedRec) (x : Staging) : (setStaging s r x).attSouth = s.attSouth := rfl
@[simp] theorem setStaging_crown (s : State) (r : StagedRec) (x : Staging) : (setStaging s r x).crown = s.crown := rfl
@[simp] theorem setStaging_can (s : State) (r : StagedRec) (x : Staging) : (setStaging s r x).can = s.can := rfl
@[simp] theorem setStaging_job (s : State) (r : StagedRec) (x : Staging) : (setStaging s r x).job = s.job := rfl
@[simp] theorem setStaging_tick (s : State) (r : StagedRec) (x : Staging) : (setStaging s r x).tick = s.tick := rfl
@[simp] theorem setStaging_topo (s : State) (r : StagedRec) (x : Staging) : (setStaging s r x).topo = s.topo := rfl
@[simp] theorem setStaging_clusters (s : State) (r : StagedRec) (x : Staging) : (setStaging s r x).clusters = s.clusters := rfl
@[simp] theorem setStaging_mem (s : State) (r : StagedRec) (x : Staging) : (setStaging s r x).mem = s.mem := rfl
@[simp] theorem setStaging_stacks (s : State) (r : StagedRec) (x : Staging) : (setStaging s r x).casks = s.casks := rfl
@[simp] theorem setStaging_noc (s : State) (r : StagedRec) (x : Staging) : (setStaging s r x).noc = s.noc := rfl
@[simp] theorem setStaging_fab (s : State) (r : StagedRec) (x : Staging) : (setStaging s r x).fab = s.fab := rfl
@[simp] theorem setStaging_power (s : State) (r : StagedRec) (x : Staging) : (setStaging s r x).power = s.power := rfl
@[simp] theorem setStaging_svc (s : State) (r : StagedRec) (x : Staging) : (setStaging s r x).svc = s.svc := rfl
@[simp] theorem setStaging_flt (s : State) (r : StagedRec) (x : Staging) : (setStaging s r x).flt = s.flt := rfl
/-! `answer` -/
@[simp] theorem answer_pending (s : State) (p : Party) (i sub : Nat) (r : Reply) : (answer s p i sub r).pending = s.pending := rfl
@[simp] theorem answer_freeCtr (s : State) (p : Party) (i sub : Nat) (r : Reply) : (answer s p i sub r).freeCtr = s.freeCtr := rfl
@[simp] theorem answer_fuse (s : State) (p : Party) (i sub : Nat) (r : Reply) : (answer s p i sub r).fuse = s.fuse := rfl
@[simp] theorem answer_su (s : State) (p : Party) (i sub : Nat) (r : Reply) : (answer s p i sub r).su = s.su := rfl
@[simp] theorem answer_img (s : State) (p : Party) (i sub : Nat) (r : Reply) : (answer s p i sub r).img = s.img := rfl
@[simp] theorem answer_dl (s : State) (p : Party) (i sub : Nat) (r : Reply) : (answer s p i sub r).dl = s.dl := rfl
@[simp] theorem answer_attNorth (s : State) (p : Party) (i sub : Nat) (r : Reply) : (answer s p i sub r).attNorth = s.attNorth := rfl
@[simp] theorem answer_attSouth (s : State) (p : Party) (i sub : Nat) (r : Reply) : (answer s p i sub r).attSouth = s.attSouth := rfl
@[simp] theorem answer_crown (s : State) (p : Party) (i sub : Nat) (r : Reply) : (answer s p i sub r).crown = s.crown := rfl
@[simp] theorem answer_can (s : State) (p : Party) (i sub : Nat) (r : Reply) : (answer s p i sub r).can = s.can := rfl
@[simp] theorem answer_dict (s : State) (p : Party) (i sub : Nat) (r : Reply) : (answer s p i sub r).dict = s.dict := rfl
@[simp] theorem answer_job (s : State) (p : Party) (i sub : Nat) (r : Reply) : (answer s p i sub r).job = s.job := rfl
@[simp] theorem answer_tick (s : State) (p : Party) (i sub : Nat) (r : Reply) : (answer s p i sub r).tick = s.tick := rfl
@[simp] theorem answer_topo (s : State) (p : Party) (i sub : Nat) (r : Reply) : (answer s p i sub r).topo = s.topo := rfl
@[simp] theorem answer_clusters (s : State) (p : Party) (i sub : Nat) (r : Reply) : (answer s p i sub r).clusters = s.clusters := rfl
@[simp] theorem answer_mem (s : State) (p : Party) (i sub : Nat) (r : Reply) : (answer s p i sub r).mem = s.mem := rfl
@[simp] theorem answer_stacks (s : State) (p : Party) (i sub : Nat) (r : Reply) : (answer s p i sub r).casks = s.casks := rfl
@[simp] theorem answer_noc (s : State) (p : Party) (i sub : Nat) (r : Reply) : (answer s p i sub r).noc = s.noc := rfl
@[simp] theorem answer_fab (s : State) (p : Party) (i sub : Nat) (r : Reply) : (answer s p i sub r).fab = s.fab := rfl
@[simp] theorem answer_power (s : State) (p : Party) (i sub : Nat) (r : Reply) : (answer s p i sub r).power = s.power := rfl
@[simp] theorem answer_svc (s : State) (p : Party) (i sub : Nat) (r : Reply) : (answer s p i sub r).svc = s.svc := rfl
@[simp] theorem answer_flt (s : State) (p : Party) (i sub : Nat) (r : Reply) : (answer s p i sub r).flt = s.flt := rfl
/-! `haze` -/
@[simp] theorem haze_pending (s : State) (n : Nat) : (haze s n).pending = s.pending := rfl
@[simp] theorem haze_freeCtr (s : State) (n : Nat) : (haze s n).freeCtr = s.freeCtr := rfl
@[simp] theorem haze_out (s : State) (n : Nat) : (haze s n).out = s.out := rfl
@[simp] theorem haze_fuse (s : State) (n : Nat) : (haze s n).fuse = s.fuse := rfl
@[simp] theorem haze_su (s : State) (n : Nat) : (haze s n).su = s.su := rfl
@[simp] theorem haze_img (s : State) (n : Nat) : (haze s n).img = s.img := rfl
@[simp] theorem haze_dl (s : State) (n : Nat) : (haze s n).dl = s.dl := rfl
@[simp] theorem haze_attNorth (s : State) (n : Nat) : (haze s n).attNorth = s.attNorth := rfl
@[simp] theorem haze_attSouth (s : State) (n : Nat) : (haze s n).attSouth = s.attSouth := rfl
@[simp] theorem haze_crown (s : State) (n : Nat) : (haze s n).crown = s.crown := rfl
@[simp] theorem haze_can (s : State) (n : Nat) : (haze s n).can = s.can := rfl
@[simp] theorem haze_dict (s : State) (n : Nat) : (haze s n).dict = s.dict := rfl
@[simp] theorem haze_job (s : State) (n : Nat) : (haze s n).job = s.job := rfl
@[simp] theorem haze_tick (s : State) (n : Nat) : (haze s n).tick = s.tick := rfl
@[simp] theorem haze_topo (s : State) (n : Nat) : (haze s n).topo = s.topo := rfl
@[simp] theorem haze_clusters (s : State) (n : Nat) : (haze s n).clusters = s.clusters := rfl
@[simp] theorem haze_mem (s : State) (n : Nat) : (haze s n).mem = s.mem := rfl
@[simp] theorem haze_stacks (s : State) (n : Nat) : (haze s n).casks = s.casks := rfl
@[simp] theorem haze_noc (s : State) (n : Nat) : (haze s n).noc = s.noc := rfl
@[simp] theorem haze_fab (s : State) (n : Nat) : (haze s n).fab = s.fab := rfl
@[simp] theorem haze_power (s : State) (n : Nat) : (haze s n).power = s.power := rfl
@[simp] theorem haze_svc (s : State) (n : Nat) : (haze s n).svc = s.svc := rfl
/-! `sendMsg` -/
@[simp] theorem sendMsg_pending (s : State) (port : Nat) (src : BitVec 128) (type : Nat) (rid : DWord) (body : List Byte) : (sendMsg s port src type rid body).pending = s.pending := rfl
@[simp] theorem sendMsg_freeCtr (s : State) (port : Nat) (src : BitVec 128) (type : Nat) (rid : DWord) (body : List Byte) : (sendMsg s port src type rid body).freeCtr = s.freeCtr := rfl
@[simp] theorem sendMsg_fuse (s : State) (port : Nat) (src : BitVec 128) (type : Nat) (rid : DWord) (body : List Byte) : (sendMsg s port src type rid body).fuse = s.fuse := rfl
@[simp] theorem sendMsg_su (s : State) (port : Nat) (src : BitVec 128) (type : Nat) (rid : DWord) (body : List Byte) : (sendMsg s port src type rid body).su = s.su := rfl
@[simp] theorem sendMsg_img (s : State) (port : Nat) (src : BitVec 128) (type : Nat) (rid : DWord) (body : List Byte) : (sendMsg s port src type rid body).img = s.img := rfl
@[simp] theorem sendMsg_dl (s : State) (port : Nat) (src : BitVec 128) (type : Nat) (rid : DWord) (body : List Byte) : (sendMsg s port src type rid body).dl = s.dl := rfl
@[simp] theorem sendMsg_attNorth (s : State) (port : Nat) (src : BitVec 128) (type : Nat) (rid : DWord) (body : List Byte) : (sendMsg s port src type rid body).attNorth = s.attNorth := rfl
@[simp] theorem sendMsg_attSouth (s : State) (port : Nat) (src : BitVec 128) (type : Nat) (rid : DWord) (body : List Byte) : (sendMsg s port src type rid body).attSouth = s.attSouth := rfl
@[simp] theorem sendMsg_crown (s : State) (port : Nat) (src : BitVec 128) (type : Nat) (rid : DWord) (body : List Byte) : (sendMsg s port src type rid body).crown = s.crown := rfl
@[simp] theorem sendMsg_can (s : State) (port : Nat) (src : BitVec 128) (type : Nat) (rid : DWord) (body : List Byte) : (sendMsg s port src type rid body).can = s.can := rfl
@[simp] theorem sendMsg_dict (s : State) (port : Nat) (src : BitVec 128) (type : Nat) (rid : DWord) (body : List Byte) : (sendMsg s port src type rid body).dict = s.dict := rfl
@[simp] theorem sendMsg_job (s : State) (port : Nat) (src : BitVec 128) (type : Nat) (rid : DWord) (body : List Byte) : (sendMsg s port src type rid body).job = s.job := rfl
@[simp] theorem sendMsg_tick (s : State) (port : Nat) (src : BitVec 128) (type : Nat) (rid : DWord) (body : List Byte) : (sendMsg s port src type rid body).tick = s.tick := rfl
@[simp] theorem sendMsg_topo (s : State) (port : Nat) (src : BitVec 128) (type : Nat) (rid : DWord) (body : List Byte) : (sendMsg s port src type rid body).topo = s.topo := rfl
@[simp] theorem sendMsg_clusters (s : State) (port : Nat) (src : BitVec 128) (type : Nat) (rid : DWord) (body : List Byte) : (sendMsg s port src type rid body).clusters = s.clusters := rfl
@[simp] theorem sendMsg_mem (s : State) (port : Nat) (src : BitVec 128) (type : Nat) (rid : DWord) (body : List Byte) : (sendMsg s port src type rid body).mem = s.mem := rfl
@[simp] theorem sendMsg_stacks (s : State) (port : Nat) (src : BitVec 128) (type : Nat) (rid : DWord) (body : List Byte) : (sendMsg s port src type rid body).casks = s.casks := rfl
@[simp] theorem sendMsg_noc (s : State) (port : Nat) (src : BitVec 128) (type : Nat) (rid : DWord) (body : List Byte) : (sendMsg s port src type rid body).noc = s.noc := rfl
@[simp] theorem sendMsg_fab (s : State) (port : Nat) (src : BitVec 128) (type : Nat) (rid : DWord) (body : List Byte) : (sendMsg s port src type rid body).fab = s.fab := rfl
@[simp] theorem sendMsg_power (s : State) (port : Nat) (src : BitVec 128) (type : Nat) (rid : DWord) (body : List Byte) : (sendMsg s port src type rid body).power = s.power := rfl
@[simp] theorem sendMsg_svc (s : State) (port : Nat) (src : BitVec 128) (type : Nat) (rid : DWord) (body : List Byte) : (sendMsg s port src type rid body).svc = s.svc := rfl
@[simp] theorem sendMsg_flt (s : State) (port : Nat) (src : BitVec 128) (type : Nat) (rid : DWord) (body : List Byte) : (sendMsg s port src type rid body).flt = s.flt := rfl

/-! ### Records after an update -/

theorem clusterAt_modCluster_self (s : State) (k : Nat) (f : Cluster → Cluster) :
    clusterAt (modCluster s k f) k = f (clusterAt s k) := by
  simp [clusterAt, modCluster]

theorem clusterAt_modCluster_ne (s : State) (k j : Nat) (f : Cluster → Cluster) (h : j ≠ k) :
    clusterAt (modCluster s k f) j = clusterAt s j := by
  simp [clusterAt, modCluster, tget_tset_ne _ _ _ _ _ h]

theorem siteAt_modSite_ne (s : State) (n j : Nat) (f : SiteRec → SiteRec) (h : j ≠ n) :
    siteAt (modSite s n f) j = siteAt s j := by
  simp [siteAt, modSite, tget_tset_ne _ _ _ _ _ h, siteDefault, isSlatePos]

theorem siteAt_modSite_self (s : State) (n : Nat) (f : SiteRec → SiteRec) :
    siteAt (modSite s n f) n = f (siteAt s n) := by
  simp [siteAt, modSite]

theorem stackAt_modStack_self (s : State) (n : Nat) (f : StackRec → StackRec) :
    stackAt (modStack s n f) n = f (stackAt s n) := by
  simp [stackAt, modStack]

theorem stackAt_modStack_ne (s : State) (n j : Nat) (f : StackRec → StackRec) (h : j ≠ n) :
    stackAt (modStack s n f) j = stackAt s j := by
  simp [stackAt, modStack, tget_tset_ne _ _ _ _ _ h]

theorem Cluster.engine_modEngine_self (c : Cluster) (e : Nat) (f : EngineRec → EngineRec) :
    (c.modEngine e f).engine e = f (c.engine e) := by
  simp [Cluster.engine, Cluster.modEngine]

theorem Cluster.engine_modEngine_ne (c : Cluster) (e d : Nat) (f : EngineRec → EngineRec) (h : d ≠ e) :
    (c.modEngine e f).engine d = c.engine d := by
  simp [Cluster.engine, Cluster.modEngine, tget_tset_ne _ _ _ _ _ h]

theorem engineAt_modEngine_self (s : State) (k e : Nat) (f : EngineRec → EngineRec) :
    engineAt (modEngine s k e f) k e = f (engineAt s k e) := by
  simp [engineAt, modEngine, clusterAt_modCluster_self, Cluster.engine_modEngine_self]

theorem Cluster.syncObj_modSync_self (c : Cluster) (j : Nat) (f : SyncObj → SyncObj) :
    (c.modSync j f).syncObj j = f (c.syncObj j) := by
  simp [Cluster.syncObj, Cluster.modSync]

theorem Cluster.syncObj_modSync_ne (c : Cluster) (j i : Nat) (f : SyncObj → SyncObj) (h : i ≠ j) :
    (c.modSync j f).syncObj i = c.syncObj i := by
  simp [Cluster.syncObj, Cluster.modSync, tget_tset_ne _ _ _ _ _ h]

theorem stagingOf_setStaging_self (s : State) (r : StagedRec) (x : Staging) : stagingOf (setStaging s r x) r = x := by
  simp [stagingOf, setStaging]

theorem stagingOf_setStaging_ne (s : State) (r q : StagedRec) (x : Staging) (h : q ≠ r) :
    stagingOf (setStaging s r x) q = stagingOf s q := by
  have hi : recIndex q ≠ recIndex r := by
    cases q <;> cases r <;> first | exact absurd rfl h | decide
  simp [stagingOf, setStaging, tget_tset_ne _ _ _ _ _ hi]

theorem taskMap_find (l : List Task) (n : Nat) (f : Task → Task) (hf : ∀ x, (f x).entry = x.entry) (m : Nat) :
    (l.map (fun x => if x.entry.task = n then f x else x)).find? (fun x => x.entry.task == m) =
      (l.find? (fun x => x.entry.task == m)).map (fun x => if m = n then f x else x) := by
  induction l with
  | nil => simp
  | cons x r ih =>
    have hx : (if x.entry.task = n then f x else x).entry = x.entry := by
      split
      · exact hf x
      · rfl
    simp only [List.map_cons, List.find?_cons, hx]
    by_cases h : x.entry.task = m
    · simp [h]
    · have hb : (x.entry.task == m) = false := by simp [h]
      simp only [hb, ih]

/-- A task after a change of one task: a change that keeps the stream entry changes that task alone. -/
theorem Cluster.task_modTask_ne (c : Cluster) (n m : Nat) (f : Task → Task) (hf : ∀ x, (f x).entry = x.entry)
    (h : m ≠ n) : (c.modTask n f).task m = c.task m := by
  simp only [Cluster.task, Cluster.modTask, taskMap_find c.tasks n f hf m]
  cases c.tasks.find? (fun x => x.entry.task == m) <;> simp [h]

theorem Cluster.task_modTask_self (c : Cluster) (n : Nat) (f : Task → Task) (hf : ∀ x, (f x).entry = x.entry)
    (h : c.hasTask n = true) : (c.modTask n f).task n = f (c.task n) := by
  simp only [Cluster.task, Cluster.modTask, taskMap_find c.tasks n f hf n]
  have : (c.tasks.find? (fun x => x.entry.task == n)).isSome = true := by
    rw [List.find?_isSome]
    simpa [Cluster.hasTask, List.any_eq_true] using h
  cases hh : c.tasks.find? (fun x => x.entry.task == n) with
  | none => simp [hh] at this
  | some v => simp

end Sys2Proof.Machine
end

