-- ==== Sys2Proof/Laws/Frames.lean ====
section
/-!
SUPPORT. How the frames of claims compose.
-/
namespace Sys2Proof.Machine
open Sys2Proof

set_option Elab.async false

theorem clustersOnly_trans {s u t : State} (h1 : u = { s with clusters := u.clusters })
    (h2 : t = { u with clusters := t.clusters }) : t = { s with clusters := t.clusters } :=
  calc t = { u with clusters := t.clusters } := h2
    _ = { s with clusters := t.clusters } := congrArg (fun x : State => { x with clusters := t.clusters }) h1

theorem onlyCluster_refl (s : State) (k : Nat) : Claim.OnlyCluster s s k := ⟨rfl, fun _ _ => rfl⟩

theorem onlyCluster_trans {s u t : State} {k : Nat} (h1 : Claim.OnlyCluster s u k) (h2 : Claim.OnlyCluster u t k) :
    Claim.OnlyCluster s t k :=
  ⟨clustersOnly_trans h1.1 h2.1, fun j hj => (h2.2 j hj).trans (h1.2 j hj)⟩

theorem onlyCluster_modCluster (s : State) (k : Nat) (f : Cluster → Cluster) :
    Claim.OnlyCluster s (modCluster s k f) k :=
  ⟨rfl, fun j hj => clusterAt_modCluster_ne s k j f hj⟩

end Sys2Proof.Machine
end

