-- ==== Sys2Proof/Laws/Waits.lean ====
section
/-!
SUPPORT. What the judging of waits can change (09 R246): an object, and whether the waits of engines and of the sequencer are
met.
-/
namespace Sys2Proof.Machine
open Sys2Proof

set_option Elab.async false

/-- All that a judgement of waits may change of a cluster. -/
def WaitsOnly (c d : Cluster) : Prop :=
  d = { c with engines := d.engines, sync := d.sync, seqMet := d.seqMet } ∧
  ∀ e, d.engine e = { c.engine e with met := (d.engine e).met }

theorem waitsOnly_refl (c : Cluster) : WaitsOnly c c := ⟨rfl, fun _ => rfl⟩

theorem waitsOnly_trans {c d f : Cluster} (h : WaitsOnly c d) (g : WaitsOnly d f) : WaitsOnly c f := by
  refine ⟨?_, fun e => ?_⟩
  · rw [g.1]
    conv => lhs; rw [h.1]
  · rw [g.2 e]
    conv => lhs; rw [h.2 e]

theorem waitsOnly_modSync (c : Cluster) (j : Nat) (f : SyncObj → SyncObj) : WaitsOnly c (c.modSync j f) :=
  ⟨rfl, fun _ => rfl⟩

theorem waitsOnly_markMet (c : Cluster) (w : Nat) : WaitsOnly c (markMet c w) := by
  unfold markMet
  split
  · exact ⟨rfl, fun _ => rfl⟩
  · refine ⟨rfl, fun e => ?_⟩
    by_cases h : e = w
    · subst h
      rw [Cluster.engine_modEngine_self]
    · rw [Cluster.engine_modEngine_ne _ _ _ _ h]

theorem waitsOnly_marks (l : List Nat) (c : Cluster) : WaitsOnly c (l.foldl markMet c) := by
  induction l generalizing c with
  | nil => exact waitsOnly_refl c
  | cons w r ih => exact waitsOnly_trans (waitsOnly_markMet c w) (ih _)

theorem markMet_sync (c : Cluster) (w : Nat) : (markMet c w).sync = c.sync := by
  unfold markMet
  split <;> rfl

theorem marks_sync (l : List Nat) (c : Cluster) : (l.foldl markMet c).sync = c.sync := by
  induction l generalizing c with
  | nil => rfl
  | cons w r ih => rw [List.foldl_cons, ih, markMet_sync]

theorem waitsOnly_judgeObj (c : Cluster) (j : Nat) : WaitsOnly c (judgeObj c j) := by
  unfold judgeObj
  simp only
  split
  · exact waitsOnly_refl c
  · exact waitsOnly_trans (waitsOnly_modSync c j _) (waitsOnly_marks _ _)

theorem waitsOnly_beginWait (c : Cluster) (who j n : Nat) : WaitsOnly c (beginWait c who j n) :=
  waitsOnly_trans (waitsOnly_modSync c j _) (waitsOnly_judgeObj _ j)

/-- No wait met: nothing of the judgement but the value. -/
theorem judgeWaiters_none (l : List (Nat × Nat)) (v : Nat) (h : (judgeWaiters l v).2.2 = []) :
    (judgeWaiters l v).1 = v ∧ (judgeWaiters l v).2.1 = l := by
  induction l with
  | nil => exact ⟨rfl, rfl⟩
  | cons x r ih =>
    obtain ⟨w, n⟩ := x
    unfold judgeWaiters at h ⊢
    split at h
    · simp at h
    · rename_i hn
      simp only [if_neg hn]
      exact ⟨(ih h).1, by rw [(ih h).2]⟩

theorem judgeObj_syncObj_ne (c : Cluster) (i j : Nat) (h : i ≠ j) : (judgeObj c j).syncObj i = c.syncObj i := by
  unfold judgeObj
  simp only
  split
  · rfl
  · unfold Cluster.syncObj
    rw [marks_sync]
    exact Cluster.syncObj_modSync_ne c j i _ h

/-- An object after its waits are judged. -/
theorem judgeObj_syncObj_self (c : Cluster) (j : Nat) :
    (judgeObj c j).syncObj j = { c.syncObj j with
      value := BitVec.ofNat 16 (judgeWaiters (c.syncObj j).waiters (c.syncObj j).value.toNat).1
      waiters := (judgeWaiters (c.syncObj j).waiters (c.syncObj j).value.toNat).2.1 } := by
  unfold judgeObj
  simp only
  split
  · rename_i h
    have hn := judgeWaiters_none (c.syncObj j).waiters (c.syncObj j).value.toNat (by simpa using h)
    rw [hn.1, hn.2]
    simp
  · unfold Cluster.syncObj
    rw [marks_sync]
    exact Cluster.syncObj_modSync_self c j _

theorem beginWait_syncObj_ne (c : Cluster) (who j n i : Nat) (h : i ≠ j) : (beginWait c who j n).syncObj i = c.syncObj i := by
  unfold beginWait
  rw [judgeObj_syncObj_ne _ _ _ h, Cluster.syncObj_modSync_ne _ _ _ _ h]

/-- A wait that begins on an object with no earlier waiter and units enough takes them at once. -/
theorem beginWait_takes (c : Cluster) (who j n : Nat) (hw : (c.syncObj j).waiters = []) (hn : n ≤ (c.syncObj j).value.toNat) :
    (beginWait c who j n).syncObj j = { c.syncObj j with value := BitVec.ofNat 16 ((c.syncObj j).value.toNat - n) } := by
  unfold beginWait
  rw [judgeObj_syncObj_self, Cluster.syncObj_modSync_self]
  have hj : joinWait (c.syncObj j) who n = { c.syncObj j with waiters := [(who, n)] } := by simp [joinWait, hw]
  rw [hj]
  simp [judgeWaiters, hn, hw]

/-- What a begun wait leaves of an object depends on the object alone. -/
theorem beginWait_syncObj_congr (c d : Cluster) (who j n : Nat) (h : c.syncObj j = d.syncObj j) :
    (beginWait c who j n).syncObj j = (beginWait d who j n).syncObj j := by
  unfold beginWait
  rw [judgeObj_syncObj_self, judgeObj_syncObj_self, Cluster.syncObj_modSync_self, Cluster.syncObj_modSync_self, h]

theorem waitsOnly_joinHead (c : Cluster) (e : Nat) : WaitsOnly c (joinHead c e) := by
  unfold joinHead
  split
  · exact waitsOnly_refl c
  · split
    · exact waitsOnly_refl c
    · exact waitsOnly_beginWait ..

end Sys2Proof.Machine
end

