-- ==== Sys2Proof/Laws/Engine.lean ====
section
/-!
SUPPORT. What starting an engine instruction does: the head of the queue goes into flight, the next head begins its wait, and
nothing else of the cluster changes; and what an instruction with accessible ranges does.
-/
namespace Sys2Proof.Machine
open Sys2Proof

set_option Elab.async false

/-- The head that a command may start is the head of the claim. -/
theorem readyHead_of_starts (s : State) (k e op : Nat) (q : QInstr) (h : Claim.Starts s k e op q) :
    readyHead s k e op = some q := by
  obtain ⟨hm, hq, hop, hw⟩ := h
  unfold readyHead
  rw [if_pos hm]
  cases hl : (engineAt s k e).queue with
  | nil => simp [hl] at hq
  | cons x r =>
    have hx : x = q := by simpa [hl] using hq
    subst hx
    simp only [if_pos hop]
    rw [if_pos (by simpa using hw)]

/-- The one thing an engine command does when its instruction may start and its carry lines find room. -/
theorem runEngine_of_starts (s : State) (k e op : Nat) (q : QInstr) (cond : State → QInstr → Bool)
    (eff : State → QInstr → State) (h : Claim.Starts s k e op q) (hc : cond s q = true)
    (ht : throughHeld s (eff (startInstr s k e q 0) q) k = false) :
    runEngine s k e op cond eff = eff (startInstr s k e q 0) q := by
  simp only [runEngine, readyHead_of_starts s k e op q h, hc, if_true, ht, Bool.false_eq_true, if_false]

/-- With room in the write-through queue nothing waits for it. -/
theorem throughHeld_of_room (s t : State) (k : Nat) (h : (clusterAt s k).wtQueue.length < 1024) : throughHeld s t k = false := by
  simp [throughHeld, Nat.not_le.mpr h]

/-- An effect that adds no carry line waits for no room. -/
theorem throughHeld_of_same (s t : State) (k : Nat) (h : (clusterAt t k).wtQueue = (clusterAt s k).wtQueue) :
    throughHeld s t k = false := by
  simp [throughHeld, h]

/-- The started instruction out of its queue and in flight, before the next head begins to wait. -/
def launched (c : Cluster) (e : Nat) (q : QInstr) (n : Nat) : Cluster :=
  c.modEngine e (fun r => { r with
    queue := r.queue.tail, met := false
    flight := r.flight ++ [{ instr := q, upTo := r.issued, reads := n, before := watchedSlot c e }] })

theorem clusterAt_startInstr (s : State) (k e : Nat) (q : QInstr) (n : Nat) :
    clusterAt (startInstr s k e q n) k = joinHead (launched (clusterAt s k) e q n) e := by
  rw [startInstr, clusterAt_modCluster_self]
  rfl

/-- An engine beside the started one is as it was, but for whether its wait is met. -/
theorem startInstr_engine (s : State) (k e d : Nat) (q : QInstr) (n : Nat) :
    engineAt (startInstr s k e q n) k d = { (launched (clusterAt s k) e q n).engine d with
      met := (engineAt (startInstr s k e q n) k d).met } := by
  unfold engineAt
  rw [clusterAt_startInstr]
  exact (waitsOnly_joinHead _ e).2 d

/-- Everything that a start does to its engine's cluster. -/
theorem startInstr_started (s : State) (k e : Nat) (q : QInstr) : Claim.StartedInside s (startInstr s k e q 0) k e q := by
  have hq : ((launched (clusterAt s k) e q 0).engine e).queue = (engineAt s k e).queue.tail := by
    rw [launched, Cluster.engine_modEngine_self]
    rfl
  have hs : ∀ j, (launched (clusterAt s k) e q 0).syncObj j = (clusterAt s k).syncObj j := fun _ => rfl
  have hd : ∀ d, d ≠ e → (launched (clusterAt s k) e q 0).engine d = engineAt s k d := fun d h =>
    Cluster.engine_modEngine_ne _ _ _ _ h
  refine ⟨onlyCluster_modCluster _ _ _, ?_, ?_, ?_, ?_, ?_, ?_⟩
  · rw [startInstr_engine, hq]
  · rw [startInstr_engine, launched, Cluster.engine_modEngine_self]
    rfl
  · intro j hj
    rw [clusterAt_startInstr]
    unfold joinHead
    rw [hq]
    unfold Claim.nextWait at hj
    cases hl : (engineAt s k e).queue.tail with
    | nil => rfl
    | cons x r =>
      rw [hl] at hj
      simp only at hj ⊢
      split
      · rfl
      · rename_i hn
        have : j ≠ wWaitObj x.word := fun h => hj (wWaitN x.word) (by rw [if_neg hn, h])
        rw [beginWait_syncObj_ne _ _ _ _ _ this, hs]
  · intro j n hj
    rw [clusterAt_startInstr]
    unfold joinHead
    rw [hq]
    unfold Claim.nextWait at hj
    cases hl : (engineAt s k e).queue.tail with
    | nil => rw [hl] at hj; simp at hj
    | cons x r =>
      rw [hl] at hj
      simp only at hj ⊢
      split at hj
      · simp at hj
      · rename_i hn
        obtain ⟨rfl, rfl⟩ := Prod.mk.inj (Option.some.inj hj)
        rw [if_neg hn]
        exact beginWait_syncObj_congr _ _ _ _ _ (hs _)
  · intro d h
    show engineAt _ k d = _
    rw [startInstr_engine, hd d h]
  · intro hn d h
    show (clusterAt _ k).engine d = _
    rw [clusterAt_startInstr]
    have : joinHead (launched (clusterAt s k) e q 0) e = launched (clusterAt s k) e q 0 := by
      unfold joinHead
      rw [hq]
      unfold Claim.nextWait at hn
      cases hl : (engineAt s k e).queue.tail with
      | nil => rfl
      | cons x r =>
        rw [hl] at hn
        simp only at hn ⊢
        split at hn
        · rename_i h; rw [if_pos h]
        · simp at hn
    rw [this, hd d h]

/-- A start changes no flag and no task. -/
theorem startInstr_flagsOnly (s : State) (k e : Nat) (q : QInstr) :
    Claim.FlagsOnly s (startInstr s k e q 0) k q.task 0 := by
  have hr : clusterAt (startInstr s k e q 0) k = { clusterAt s k with
      engines := (clusterAt (startInstr s k e q 0) k).engines, sync := (clusterAt (startInstr s k e q 0) k).sync
      seqMet := (clusterAt (startInstr s k e q 0) k).seqMet } := by
    rw [clusterAt_startInstr, (waitsOnly_joinHead _ e).1]
    rfl
  refine ⟨?_, ?_, ?_, ?_⟩
  · rw [hr]; simp
  · intro n _; rw [hr]; rfl
  · intro _
    rw [hr]
    show (clusterAt s k).task q.task = _
    simp
  · rw [hr]

/-- A start keeps the engine's record but for its queue, what is in flight and its wait. -/
theorem startInstr_sameEngine (s : State) (k e : Nat) (q : QInstr) : Claim.SameEngine s (startInstr s k e q 0) k e := by
  unfold Claim.SameEngine
  rw [startInstr_engine, launched, Cluster.engine_modEngine_self]
  rfl

/-- A start puts no carry line into the write-through queue. -/
theorem startInstr_wtQueue (s : State) (k e : Nat) (q : QInstr) (n : Nat) :
    (clusterAt (startInstr s k e q n) k).wtQueue = (clusterAt s k).wtQueue := by
  rw [clusterAt_startInstr, (waitsOnly_joinHead _ e).1]
  rfl

/-- Parts with no upset in them check good and change nothing. -/
theorem checkParts_clean (s : State) (k : Nat) (l : List (Nat × Nat))
    (h : ∀ p ∈ l, upsetsIn s.mem 0 (memKey s p.1) p.2 = []) : checkParts s k l = (s, none) := by
  induction l with
  | nil => rfl
  | cons p r ih =>
    have : checkPad s k p.1 p.2 = (s, none) := by simp [checkPad, h p (List.mem_cons_self ..)]
    unfold checkParts
    simp only [this]
    exact ih (fun x hx => h x (List.mem_cons_of_mem _ hx))

/-- An instruction whose ranges are accessible takes its effect. -/
theorem guarded_of_accessible (s : State) (k e : Nat) (q : QInstr) (rs : List Range) (eff : State → State)
    (h : Claim.Accessible s rs) : guarded s k e q rs eff = eff s := by
  obtain ⟨h1, h2⟩ := h
  simp only [guarded, h1, checkRanges, checkParts_clean s k _ h2]

end Sys2Proof.Machine
end

