-- ==== Sys2Proof/Laws/Faults.lean ====
section
/-!
SUPPORT. What a fault record changes, and what the end of a job leaves.
-/
namespace Sys2Proof.Machine
open Sys2Proof

set_option Elab.async false

/-! ### A record -/

/-- A record changes the fault log and the field network's queues, and nothing else. -/
theorem report_rest (s : State) (u : UnitId) (code action eng lcl detail : Nat) :
    report s u code action eng lcl detail = { s with
      flt := (report s u code action eng lcl detail).flt, can := (report s u code action eng lcl detail).can } := by
  unfold report queueEmcy
  dsimp only
  split <;> rfl

theorem report_flt (s : State) (u : UnitId) (code action eng lcl detail : Nat) :
    (report s u code action eng lcl detail).flt = { s.flt with
      log := lastOf 256 (s.flt.log ++
        [faultRecord s.tick.count code (faultClass code) action (unitNumber u) eng lcl detail])
      faults := s.flt.faults + 1 } := by
  unfold report queueEmcy
  dsimp only
  split <;> rfl

@[simp] theorem report_mem (s : State) (u : UnitId) (code action eng lcl detail : Nat) :
    (report s u code action eng lcl detail).mem = s.mem := by rw [report_rest]
@[simp] theorem report_job (s : State) (u : UnitId) (code action eng lcl detail : Nat) :
    (report s u code action eng lcl detail).job = s.job := by rw [report_rest]
@[simp] theorem report_tick (s : State) (u : UnitId) (code action eng lcl detail : Nat) :
    (report s u code action eng lcl detail).tick = s.tick := by rw [report_rest]
@[simp] theorem report_topo (s : State) (u : UnitId) (code action eng lcl detail : Nat) :
    (report s u code action eng lcl detail).topo = s.topo := by rw [report_rest]
@[simp] theorem report_clusters (s : State) (u : UnitId) (code action eng lcl detail : Nat) :
    (report s u code action eng lcl detail).clusters = s.clusters := by rw [report_rest]
@[simp] theorem report_pending (s : State) (u : UnitId) (code action eng lcl detail : Nat) :
    (report s u code action eng lcl detail).pending = s.pending := by rw [report_rest]
@[simp] theorem report_fuse (s : State) (u : UnitId) (code action eng lcl detail : Nat) :
    (report s u code action eng lcl detail).fuse = s.fuse := by rw [report_rest]
@[simp] theorem report_out (s : State) (u : UnitId) (code action eng lcl detail : Nat) :
    (report s u code action eng lcl detail).out = s.out := by rw [report_rest]
@[simp] theorem report_dl (s : State) (u : UnitId) (code action eng lcl detail : Nat) :
    (report s u code action eng lcl detail).dl = s.dl := by rw [report_rest]

/-! ### A job that is already gone or ending -/

theorem endJob_ended (s : State) (reason code : Nat) (h : s.job.state = .none ∨ s.job.state = .ending) :
    endJob s reason code = s := by
  unfold endJob
  rcases h with h | h <;> simp [h]

/-- Without a job a fault is a record and nothing else. -/
theorem raise_noJob (s : State) (u : UnitId) (code eng lcl detail : Nat) (t : Option Time) (h : s.job.state = .none) :
    raise s u code eng lcl detail t = report s u code actNone eng lcl detail := by
  simp [raise, jobHeld, h]

/-- A fault that ends a job: the record, then the end. -/
theorem raise_ends (s : State) (u : UnitId) (code eng lcl detail : Nat) (t : Option Time) (h : s.job.state = .running)
    (he : rideThrough s = false ∨ endsAlways code = true) :
    raise s u code eng lcl detail t = endJob (report s u code actEnd eng lcl detail) 3 code := by
  rcases he with he | he <;> simp [raise, jobHeld, h, he]

/-- A fault that a frame is replayed for: the record, then the abandonment. -/
theorem raise_replays (s : State) (u : UnitId) (code eng lcl detail : Nat) (t : Option Time) (h : s.job.state = .running)
    (hr : rideThrough s = true) (he : endsAlways code = false) :
    raise s u code eng lcl detail t = abandon (report s u code actReplay eng lcl detail) t := by
  simp [raise, jobHeld, h, hr, he]

/-! ### Tables of sites and clusters under a fold -/

/-- Changes of sites change the sites and nothing else. -/
theorem modSites_rest (s : State) (ns : List Nat) (f : Nat → SiteRec → SiteRec) :
    modSites s ns f = { s with topo := { s.topo with sites := (modSites s ns f).topo.sites } } := by
  unfold modSites
  induction ns generalizing s with
  | nil => rfl
  | cons n r ih =>
    rw [List.foldl_cons, ih]
    rfl

theorem clusterAt_mapClusters (s : State) (f : Nat → Cluster → Cluster) (k : Nat) (c : Cluster)
    (h : tfind s.clusters k = some c) : clusterAt (mapClusters s f) k = f k c := by
  simp [clusterAt, mapClusters, tget, tfind_tmap, h]

end Sys2Proof.Machine
end

