-- ==== Sys2Proof/Laws/Memory.lean ====
section
/-!
SUPPORT. The laws of memory: what a cell reads as after one was put, and that every operation on memory keeps its canonical
form.
-/
namespace Sys2Proof.Machine
open Sys2Proof

set_option Elab.async false

/-! ### One cell -/

@[simp] theorem cellGet_cellPut_self (a : Nat) (b : Byte) (cs : List Host.Cell) : cellGet a (cellPut a b cs) = some b := by
  induction cs with
  | nil => simp [cellPut, cellGet]
  | cons x r ih =>
    obtain ⟨y, v⟩ := x
    simp only [cellPut]
    split
    · simp [cellGet]
    · split
      · rename_i h
        simp [cellGet, h]
      · rename_i h
        simp [cellGet, h, ih]

theorem cellGet_cellPut_ne (a c : Nat) (b : Byte) (cs : List Host.Cell) (h : c ≠ a) :
    cellGet c (cellPut a b cs) = cellGet c cs := by
  induction cs with
  | nil => simp [cellPut, cellGet, h]
  | cons x r ih =>
    obtain ⟨y, v⟩ := x
    simp only [cellPut]
    split
    · simp [cellGet, h]
    · split
      · rename_i e
        subst e
        simp [cellGet, h]
      · simp [cellGet, ih]

theorem cellGet_cellPut (a c : Nat) (b : Byte) (cs : List Host.Cell) :
    cellGet c (cellPut a b cs) = if c = a then some b else cellGet c cs := by
  split
  · rename_i h
    subst h
    simp
  · rename_i h
    exact cellGet_cellPut_ne a c b cs h

/-- The cells after a list of keys was put, each with its value. -/
theorem cellGet_foldl_cellPut (f : Nat → Byte) (ks : List Nat) (cs : List Host.Cell) (c : Nat) :
    cellGet c (ks.foldl (fun a k => cellPut k (f k) a) cs) = if c ∈ ks then some (f c) else cellGet c cs := by
  induction ks generalizing cs with
  | nil => simp
  | cons k r ih =>
    simp only [List.foldl_cons, ih, cellGet_cellPut, List.mem_cons]
    by_cases h1 : c ∈ r
    · simp [h1]
    · by_cases h2 : c = k
      · simp [h2]
      · simp [h1, h2]

/-! ### The rising order -/

/-- Keys in strictly rising order, as a relation on every two places. -/
theorem cellsRise_iff (cs : List Host.Cell) : cellsRise cs = true ↔ cs.Pairwise (fun x y => x.1 < y.1) := by
  induction cs with
  | nil => simp [cellsRise]
  | cons x r ih =>
    cases r with
    | nil => simp [cellsRise]
    | cons y q =>
      obtain ⟨a, v⟩ := x
      obtain ⟨b, w⟩ := y
      simp only [cellsRise, Bool.and_eq_true, decide_eq_true_eq, ih, List.pairwise_cons (a := (a, v))]
      constructor
      · rintro ⟨h1, h2⟩
        refine ⟨fun z hz => ?_, h2⟩
        rcases List.mem_cons.1 hz with rfl | hz
        · exact h1
        · exact Nat.lt_trans h1 ((List.pairwise_cons.1 h2).1 z hz)
      · rintro ⟨h1, h2⟩
        exact ⟨h1 _ (List.mem_cons_self ..), h2⟩

theorem mem_cellPut (a : Nat) (b : Byte) (cs : List Host.Cell) (z : Host.Cell) (h : z ∈ cellPut a b cs) :
    z = (a, b) ∨ z ∈ cs := by
  induction cs with
  | nil => simpa [cellPut] using h
  | cons x r ih =>
    obtain ⟨y, v⟩ := x
    simp only [cellPut] at h
    split at h
    · simpa using h
    · split at h
      · rename_i e
        subst e
        rcases List.mem_cons.1 h with rfl | h
        · exact .inl rfl
        · exact .inr (List.mem_cons_of_mem _ h)
      · rcases List.mem_cons.1 h with rfl | h
        · exact .inr (List.mem_cons_self ..)
        · exact (ih h).imp_right (List.mem_cons_of_mem _)

theorem cellsRise_cellPut (a : Nat) (b : Byte) (cs : List Host.Cell) (h : cellsRise cs = true) :
    cellsRise (cellPut a b cs) = true := by
  rw [cellsRise_iff] at h ⊢
  induction cs with
  | nil => simp [cellPut]
  | cons x r ih =>
    obtain ⟨y, v⟩ := x
    obtain ⟨h1, h2⟩ := List.pairwise_cons.1 h
    simp only [cellPut]
    split
    · rename_i hlt
      refine List.pairwise_cons.2 ⟨fun z hz => ?_, h⟩
      rcases List.mem_cons.1 hz with rfl | hz
      · exact hlt
      · exact Nat.lt_trans hlt (h1 z hz)
    · split
      · exact List.pairwise_cons.2 ⟨h1, h2⟩
      · rename_i n1 n2
        refine List.pairwise_cons.2 ⟨fun z hz => ?_, ih h2⟩
        rcases mem_cellPut a b r z hz with rfl | hz
        · show y < a
          omega
        · exact h1 z hz

theorem cellsRise_filter (p : Host.Cell → Bool) (cs : List Host.Cell) (h : cellsRise cs = true) :
    cellsRise (cs.filter p) = true := by
  rw [cellsRise_iff] at h ⊢
  exact h.filter p

/-- New values under the old keys. -/
theorem cellsRise_map (f : Host.Cell → Host.Cell) (hf : ∀ c, (f c).1 = c.1) (cs : List Host.Cell)
    (h : cellsRise cs = true) : cellsRise (cs.map f) = true := by
  rw [cellsRise_iff] at h ⊢
  rw [List.pairwise_map]
  simpa [hf] using h

theorem cellsRise_foldl {α : Type} (key : α → Nat) (val : α → Byte) (xs : List α) (cs : List Host.Cell)
    (h : cellsRise cs = true) : cellsRise (xs.foldl (fun a x => cellPut (key x) (val x) a) cs) = true := by
  induction xs generalizing cs with
  | nil => exact h
  | cons x r ih => exact ih _ (cellsRise_cellPut _ _ _ h)

theorem cellsRise_foldl_keys (f : Nat → Byte) (ks : List Nat) (cs : List Host.Cell) (h : cellsRise cs = true) :
    cellsRise (ks.foldl (fun a k => cellPut k (f k) a) cs) = true := by
  induction ks generalizing cs with
  | nil => exact h
  | cons k r ih => exact ih _ (cellsRise_cellPut _ _ _ h)

/-! ### The canonical form -/

theorem Memory.wf_iff (m : Memory) : m.wf = true ↔ cellsRise m.cells = true ∧ cellsRise m.dark = true := by
  simp [Memory.wf]

/-- The form depends on the cells of the two banks alone. -/
theorem Memory.wf_of_cells {m n : Memory} (hc : n.cells = m.cells) (hd : n.dark = m.dark) (h : m.wf = true) :
    n.wf = true := by
  simp only [Memory.wf, hc, hd]
  exact h

theorem wf_clearUpset {m : Memory} (key : Nat) (h : m.wf = true) : (clearUpset m key).wf = true := h
theorem wf_healUpsets {m : Memory} (ks : List Nat) (h : m.wf = true) : (healUpsets m ks).wf = true := h
theorem wf_commitMarks {m : Memory} (h : m.wf = true) : (commitMarks m).wf = true := h
theorem wf_clearMarks {m : Memory} (h : m.wf = true) : (clearMarks m).wf = true := h

theorem wf_putPale {m : Memory} (key : Nat) (b : Byte) (h : m.wf = true) : (putPale m key b).wf = true := by
  rw [Memory.wf_iff] at h ⊢
  exact ⟨cellsRise_cellPut _ _ _ h.1, h.2⟩

theorem wf_putDark {m : Memory} (key : Nat) (b : Byte) (h : m.wf = true) : (putDark m key b).wf = true := by
  rw [Memory.wf_iff] at h ⊢
  exact ⟨h.1, cellsRise_cellPut _ _ _ h.2⟩

theorem wf_mergeLine (s : State) (line : Nat) (h : s.mem.wf = true) : (mergeLine s line).wf = true := by
  rw [Memory.wf_iff] at h ⊢
  unfold mergeLine
  generalize List.map (fun i => 64 * line + i) (List.range 64) = ks
  split
  · exact ⟨cellsRise_foldl_keys _ ks _ h.1, h.2⟩
  · exact ⟨h.1, cellsRise_foldl_keys _ ks _ h.2⟩

theorem cellsRise_cellPutAll (a : Nat) (bs : List Byte) (cs : List Host.Cell) (h : cellsRise cs = true) :
    cellsRise (cellPutAll a bs cs) = true := by
  induction bs generalizing a cs with
  | nil => exact h
  | cons b r ih => exact ih _ _ (cellsRise_cellPut _ _ _ h)

/-- A byte put into the bank of a line that is not committed. -/
theorem wf_putUncommitted (s : State) (key : Nat) (b : Byte) (h : s.mem.wf = true) :
    (putUncommitted s key b).mem.wf = true := by
  have hm : (if s.mem.pending.contains (key / 64) then s.mem else mergeLine s (key / 64)).wf = true := by
    split
    · exact h
    · exact wf_mergeLine s _ h
  unfold putUncommitted
  dsimp only
  generalize (if s.mem.pending.contains (key / 64) then s.mem else mergeLine s (key / 64)) = m at hm
  have hp : ({ m with pending := setInsert (key / 64) m.pending } : Memory).wf = true := hm
  split
  · exact wf_putPale _ _ hp
  · exact wf_putDark _ _ hp

theorem wf_writeCopy (s : State) (c a : Nat) (bs : List Byte) (h : s.mem.wf = true) : (writeCopy s c a bs).mem.wf = true := by
  induction bs generalizing s a with
  | nil => exact h
  | cons b r ih => exact ih _ _ (wf_putUncommitted s _ b h)

theorem wf_restoreLine (s : State) (line : Nat) (bs : List Byte) (h : s.mem.wf = true) :
    (restoreLine s line bs).mem.wf = true := by
  rw [Memory.wf_iff] at h
  unfold restoreLine
  dsimp only
  rw [Memory.wf_iff]
  split
  · exact ⟨h.1, cellsRise_cellPutAll _ _ _ h.2⟩
  · exact ⟨cellsRise_cellPutAll _ _ _ h.1, h.2⟩

theorem wf_writeByte (s : State) (a : Nat) (b : Byte) (h : s.mem.wf = true) : (writeByte s a b).mem.wf = true := by
  unfold writeByte
  dsimp only
  split
  · exact wf_putUncommitted s _ b h
  · split
    · exact wf_putPale _ _ h
    · exact wf_putPale _ _ h

theorem wf_writeBytes (s : State) (a : Nat) (bs : List Byte) (h : s.mem.wf = true) : (writeBytes s a bs).mem.wf = true := by
  induction bs generalizing s a with
  | nil => exact h
  | cons b r ih => exact ih _ _ (wf_writeByte s a b h)

theorem wf_storePlain (s : State) (a : Nat) (bs : List Byte) (h : s.mem.wf = true) : (storePlain s a bs).mem.wf = true := by
  induction bs generalizing s a with
  | nil => exact h
  | cons b r ih => exact ih _ _ (wf_putPale _ _ h)

theorem wf_dropCopies {m : Memory} (h : m.wf = true) : (dropCopies m).wf = true :=
  (Memory.wf_iff _).2 ⟨cellsRise_filter _ _ ((Memory.wf_iff _).1 h).1, cellsRise_filter _ _ ((Memory.wf_iff _).1 h).2⟩

theorem wf_copyCarry (s : State) (h : s.mem.wf = true) : (copyCarry s).mem.wf = true :=
  (Memory.wf_iff _).2 ⟨cellsRise_foldl Prod.fst Prod.snd _ _ ((Memory.wf_iff _).1 h).1, ((Memory.wf_iff _).1 h).2⟩

theorem wf_writeOut (s : State) (h : s.mem.wf = true) : (writeOut s).mem.wf = true :=
  (Memory.wf_iff _).2 ⟨cellsRise_foldl_keys _ _ _ ((Memory.wf_iff _).1 h).1, rfl⟩

theorem wf_dropScratch (s : State) (h : s.mem.wf = true) : (dropScratch s).mem.wf = true :=
  (Memory.wf_iff _).2 ⟨cellsRise_filter _ _ ((Memory.wf_iff _).1 h).1, ((Memory.wf_iff _).1 h).2⟩

theorem wf_spoilCarry (s : State) (h : s.mem.wf = true) : (spoilCarry s).mem.wf = true :=
  (Memory.wf_iff _).2 ⟨cellsRise_map _ (fun c => by split <;> rfl) _ ((Memory.wf_iff _).1 h).1, ((Memory.wf_iff _).1 h).2⟩

theorem wf_spoilHalf (s : State) (d : Half) (h : s.mem.wf = true) : (spoilHalf s d).mem.wf = true :=
  (Memory.wf_iff _).2 ⟨cellsRise_filter _ _ ((Memory.wf_iff _).1 h).1, cellsRise_filter _ _ ((Memory.wf_iff _).1 h).2⟩

theorem wf_losePads (s : State) (h : s.mem.wf = true) : (losePads s).mem.wf = true :=
  (Memory.wf_iff _).2 ⟨cellsRise_filter _ _ ((Memory.wf_iff _).1 h).1, cellsRise_filter _ _ ((Memory.wf_iff _).1 h).2⟩

theorem wf_loseSitePads (s : State) (n : Nat) (h : s.mem.wf = true) : (loseSitePads s n).mem.wf = true :=
  (Memory.wf_iff _).2 ⟨cellsRise_filter _ _ ((Memory.wf_iff _).1 h).1, cellsRise_filter _ _ ((Memory.wf_iff _).1 h).2⟩

/-! ### Folds -/

/-- A fold of operations that each keep the form. -/
theorem wf_foldl {α : Type} (f : State → α → State) (hf : ∀ s x, s.mem.wf = true → (f s x).mem.wf = true) (xs : List α)
    (s : State) (h : s.mem.wf = true) : (xs.foldl f s).mem.wf = true := by
  induction xs generalizing s with
  | nil => exact h
  | cons x r ih => exact ih _ (hf s x h)

/-- A fold of operations that leave memory alone. -/
theorem foldl_mem {α : Type} (f : State → α → State) (hf : ∀ s x, (f s x).mem = s.mem) (xs : List α) (s : State) :
    (xs.foldl f s).mem = s.mem := by
  induction xs generalizing s with
  | nil => rfl
  | cons x r ih => exact (ih _).trans (hf s x)

/-! ### Faults: memory at the end of a job and at an abandonment -/

@[simp] theorem modSites_mem (s : State) (ns : List Nat) (f : Nat → SiteRec → SiteRec) : (modSites s ns f).mem = s.mem := by
  rw [modSites_rest]

@[simp] theorem takeUpdate_mem (s : State) (u key : Nat) : (takeUpdate s u key).mem = s.mem := by
  unfold takeUpdate
  dsimp only
  split <;> rfl

@[simp] theorem tellAll_mem (s : State) (key : Nat) : (tellAll s key).mem = s.mem :=
  foldl_mem _ (fun _ _ => takeUpdate_mem _ _ _) _ _

@[simp] theorem setSiteLinks_mem (s : State) (n : Nat) (st : LinkState) : (setSiteLinks s n st).mem = s.mem := by
  refine foldl_mem _ (fun a key => ?_) _ _
  by_cases h : ((linkAt a key).state == .retired) = true
  · rw [if_pos h]
  · rw [if_neg h, tellAll_mem]
    rfl

@[simp] theorem startSeamResets_mem (s : State) : (startSeamResets s).mem = s.mem :=
  foldl_mem _ (fun _ _ => by rw [beginSeamReset, setSiteLinks_mem, modSite_mem]) _ _

@[simp] theorem releaseNumbers_mem (s : State) : (releaseNumbers s).mem = s.mem := by
  rw [← modSites_mem s]
  rfl

@[simp] theorem clearOwner_mem (s : State) : (clearOwner s).mem = s.mem := by
  unfold clearOwner
  split <;> rfl

@[simp] theorem endService_mem (s : State) : (endService s).mem = s.mem := by
  refine foldl_mem _ (fun a r => ?_) _ _
  unfold endRequest
  split <;> rfl

/-- A job that is gone leaves the form: its copies and its dark banks leave with it. -/
theorem wf_finishJob (s : State) (h : s.mem.wf = true) : (finishJob s).mem.wf = true := by
  have hd : (dropCaches (startSeamResets (releaseNumbers s))).mem.cells = s.mem.cells := by
    show (startSeamResets (releaseNumbers s)).mem.cells = s.mem.cells
    rw [startSeamResets_mem, releaseNumbers_mem]
  have hc : (if (dropCaches (startSeamResets (releaseNumbers s))).job.revokeOwner then
      clearOwner (dropCaches (startSeamResets (releaseNumbers s)))
      else dropCaches (startSeamResets (releaseNumbers s))).mem.cells = s.mem.cells := by
    split
    · rw [clearOwner_mem, hd]
    · exact hd
  rw [Memory.wf_iff] at h ⊢
  exact ⟨cellsRise_filter _ _ (hc ▸ h.1), rfl⟩

@[simp] theorem flushAll_mem (s : State) : (flushAll s).mem = s.mem := rfl

theorem wf_dropCaches (s : State) (h : s.mem.wf = true) : (dropCaches s).mem.wf = true := h

theorem wf_endJob (s : State) (reason code : Nat) (h : s.mem.wf = true) : (endJob s reason code).mem.wf = true := by
  unfold endJob
  split
  · exact h
  · extract_lets starting serving can job s1 s2 s3 tick s4 s5
    have h2 : s2.mem = s.mem := by
      show (if serving then endService s1 else s1).mem = s.mem
      split
      · exact endService_mem s1
      · rfl
    have h3 : s3.mem.wf = true := wf_dropCaches _ (by rw [flushAll_mem, h2]; exact h)
    have h5 : s5.mem.wf = true := by
      rw [mapClusters_mem]
      exact wf_clearMarks (m := s3.mem) h3
    clear_value s5
    split
    · exact h5
    · exact wf_finishJob _ h5

theorem wf_abandon (s : State) (t : Option Time) (h : s.mem.wf = true) : (abandon s t).mem.wf = true := by
  unfold abandon
  extract_lets first s1 s2 diag job tick
  exact wf_clearMarks (m := s1.mem) h

/-- A fault keeps the form, whatever it ends or abandons. -/
theorem wf_raise (s : State) (u : UnitId) (code eng lcl detail : Nat) (t : Option Time) (h : s.mem.wf = true) :
    (raise s u code eng lcl detail t).mem.wf = true := by
  unfold raise
  split
  · simpa using h
  · split
    · exact wf_endJob _ _ _ (by simpa using h)
    · exact wf_abandon _ _ (by simpa using h)

/-! ### Writes of a cluster -/

theorem wf_routeFault (s : State) (u dest : Nat) (h : s.mem.wf = true) : (routeFault s u dest).mem.wf = true := by
  unfold routeFault
  dsimp only
  refine wf_raise _ _ _ _ _ _ _ ?_
  split <;> split <;> exact h

/-- A packet set out keeps the form: it changes no byte, unless it finds no route, and that fault keeps the form. -/
theorem wf_sendBulk (s : State) (a b u : Nat) (p : Transit → BulkPacket) (h : s.mem.wf = true) :
    (sendBulk s a b u p).mem.wf = true := by
  unfold sendBulk inject
  split
  · exact h
  · split
    · exact wf_routeFault _ _ _ h
    · exact h
    · unfold countFallback
      split
      · exact h
      · split <;> exact h

theorem wf_throughLine (k : Nat) (s : State) (line : Nat) (h : s.mem.wf = true) : (throughLine k s line).mem.wf = true := by
  unfold throughLine
  split
  · exact h
  · exact wf_sendBulk _ _ _ _ _ (wf_sendBulk _ _ _ _ _ h)

theorem wf_padWrite (s : State) (k a : Nat) (bs : List Byte) (h : s.mem.wf = true) : (padWrite s k a bs).mem.wf = true := by
  unfold padWrite
  dsimp only
  split
  · exact wf_foldl _ (fun x line => wf_throughLine k x line) _ _ (wf_writeBytes s a bs h)
  · exact wf_writeBytes s a bs h

theorem wf_padWrites (s : State) (k : Nat) (ws : List Write) (h : s.mem.wf = true) : (padWrites s k ws).mem.wf = true := by
  induction ws generalizing s with
  | nil => exact h
  | cons w r ih => exact ih _ (wf_padWrite s k w.1 w.2 h)

/-! ### Checks of words, and what a bad word raises -/

@[simp] theorem noteRetired_mem (s : State) (kind unit detail : Nat) : (noteRetired s kind unit detail).mem = s.mem := by
  show (writeDefects s _).mem = s.mem
  unfold writeDefects
  split <;> rfl

theorem wf_takeover (s : State) (m n : Nat) (dark : Bool) (h : s.mem.wf = true) : (takeover s m n dark).mem.wf = true := by
  unfold takeover
  split
  · exact wf_endJob _ _ _ (by rw [report_mem]; exact h)
  · exact h

theorem wf_raiseSite (s : State) (n : Site) (code eng lcl detail : Nat) (dark : Bool) (t : Option Time)
    (h : s.mem.wf = true) : (raiseSite s n code eng lcl detail dark t).mem.wf = true := by
  unfold raiseSite
  split
  · rw [failSite, modSite_mem, report_mem]
    exact h
  · split
    · exact wf_takeover _ _ _ _ (wf_abandon _ _ (by rw [report_mem]; exact h))
    · dsimp only
      rw [failSite, modSite_mem]
      exact wf_raise _ _ _ _ _ _ _ h

@[simp] theorem countPadError_mem (s : State) (k : Nat) : (countPadError s k).mem = s.mem := by
  unfold countPadError
  split <;> rfl

theorem wf_restorePad (s t : State) (word : Nat) (h : s.mem.wf = true) (ht : restorePad s word = some t) :
    t.mem.wf = true := by
  unfold restorePad at ht
  split at ht
  · cases ht
  · obtain ⟨c, -, rfl⟩ := Option.map_eq_some_iff.1 ht
    exact wf_restoreLine _ _ _ h

theorem wf_dataErrorPad (s : State) (k eng key line : Nat) (h : s.mem.wf = true) :
    (dataErrorPad s k eng key line).mem.wf = true := by
  have hc : (countPadError s k).mem.wf = true := by rw [countPadError_mem]; exact h
  unfold dataErrorPad
  dsimp only
  generalize countPadError s k = c at hc
  split
  · split
    · split
      · exact wf_raiseSite _ _ _ _ _ _ _ _ (by rw [noteRetired_mem]; exact hc)
      · exact hc
    · exact hc
  · split
    · exact wf_raise _ _ _ _ _ _ _ hc
    · rename_i u hu
      have hu : u.mem.wf = true := by
        split at hu
        · exact wf_restorePad _ _ _ hc hu
        · cases hu
          exact hc
      exact wf_raise u _ _ _ _ _ _ hu

theorem wf_stackError (s : State) (n key : Nat) (carry : Bool) (h : s.mem.wf = true) :
    (stackError s n key carry).mem.wf = true := by
  unfold stackError
  dsimp only
  split
  · exact wf_raise _ _ _ _ _ _ _ h
  · split
    · exact wf_raise _ _ _ _ _ _ _ (by rw [noteRetired_mem]; exact h)
    · exact wf_raise _ (unitId (72 + n)) 6 noEngine 0 _ none h

theorem wf_checkPad (s : State) (k a n : Nat) (h : s.mem.wf = true) : (checkPad s k a n).1.mem.wf = true := by
  unfold checkPad
  dsimp only
  split
  · exact h
  · split <;> exact h

theorem wf_checkStack (s : State) (n a : Nat) (h : s.mem.wf = true) : (checkStack s n a).1.mem.wf = true := by
  have hf : (fixStack s n a 64).mem.wf = true := by
    unfold fixStack
    dsimp only
    split <;> exact h
  unfold checkStack
  dsimp only
  generalize fixStack s n a 64 = c at hf
  split
  · exact hf
  · split
    · split
      · exact wf_stackError _ _ _ _ hf
      · rw [modStack_mem, haze_mem]
        exact wf_restoreLine _ _ _ hf
    · exact wf_stackError _ _ _ _ hf

theorem wf_checkHome (s : State) (a : Nat) (h : s.mem.wf = true) : (checkHome s a).1.mem.wf = true := by
  unfold checkHome
  split
  · exact wf_checkStack _ _ _ h
  · dsimp only
    split
    · exact wf_dataErrorPad _ _ _ _ _ (wf_checkPad _ _ _ _ h)
    · exact wf_checkPad _ _ _ _ h
  · exact h

theorem wf_checkLines (s : State) (a n : Nat) (h : s.mem.wf = true) : (checkLines s a n).1.mem.wf = true := by
  induction n generalizing s a with
  | zero => exact h
  | succ n ih =>
    unfold checkLines
    dsimp only
    split
    · exact ih _ _ (wf_checkHome _ _ h)
    · exact wf_checkHome _ _ h

/-! ### A failed channel, and a reload -/

theorem channelCell_key (s : State) (n c bank : Nat) (x : Host.Cell) : (channelCell s n c bank x).1 = x.1 := by
  unfold channelCell
  split
  · rfl
  · dsimp only
    split
    · rfl
    · split <;> rfl

theorem wf_loseChannel (s : State) (n c : Nat) (h : s.mem.wf = true) : (loseChannel s n c).mem.wf = true := by
  have e : (loseChannel s n c).mem = { s.mem with
      cells := s.mem.cells.map (channelCell s n c 0)
      dark := s.mem.dark.map (channelCell s n c 1)
      epoch := s.mem.epoch + 1 } := foldl_mem _ (fun _ _ => modStack_mem _ _ _) _ _
  rw [e, Memory.wf_iff]
  exact ⟨cellsRise_map _ (channelCell_key s n c 0) _ ((Memory.wf_iff _).1 h).1,
    cellsRise_map _ (channelCell_key s n c 1) _ ((Memory.wf_iff _).1 h).2⟩

theorem wf_clearPads (s : State) (n : Nat) (h : s.mem.wf = true) : (clearPads s n).mem.wf = true :=
  (Memory.wf_iff _).2 ⟨cellsRise_filter _ _ ((Memory.wf_iff _).1 h).1, cellsRise_filter _ _ ((Memory.wf_iff _).1 h).2⟩

theorem wf_reloadLines (b m : Nat) (ls : List Nat) (s : State) (h : s.mem.wf = true) :
    (reloadLines b m ls s).1.mem.wf = true := by
  induction ls generalizing s with
  | nil => exact h
  | cons line r ih =>
    unfold reloadLines
    split
    · exact ih _ (wf_restoreLine _ _ _ h)
    · exact h

theorem wf_reloadCarry (s : State) (a b m : Nat) (h : s.mem.wf = true) : (reloadCarry s a b m).1.mem.wf = true :=
  wf_reloadLines b m _ _ (wf_clearPads _ _ (wf_clearPads _ _ h))

/-! ### The start of a job -/

theorem wf_startLines (k : Nat) (s : State) (t : Task) (h : s.mem.wf = true) : (startLines k s t).mem.wf = true := by
  unfold startLines
  dsimp only
  have h1 := wf_storePlain s (padAddr k t.entry.baseLine) (stateLine t.entry.entryPc false 0 (List.replicate 7 0)) h
  split
  · exact h1
  · rename_i b _
    have h2 := wf_storePlain _ (padAddr k b.region) (mashImage (mashInit b)) h1
    split
    · exact wf_storePlain _ _ _ h2
    · exact h2

theorem wf_startAllLines (s : State) (h : s.mem.wf = true) : (startAllLines s).mem.wf = true :=
  wf_foldl _ (fun _ c ha => wf_foldl _ (fun x t hx => wf_startLines c.1 x t hx) _ _ ha) _ _ h

/-- A preload keeps the form, whatever a bad source line raises. -/
theorem wf_preload (s : State) (ps : List Preload) (h : s.mem.wf = true) : (preload s ps).mem.wf = true := by
  induction ps generalizing s with
  | nil => exact wf_startAllLines s h
  | cons x r ih =>
    unfold preload
    dsimp only
    split
    · exact ih _ (wf_storePlain _ _ _ (wf_checkLines _ _ _ h))
    · exact wf_checkLines _ _ _ h

end Sys2Proof.Machine
end

