-- ==== Sys2Proof/Laws/PerInstr.lean ====
section
/-!
SUPPORT. One lemma per command: a well-formed command brings at most 4 GiB into the block.
-/
set_option Elab.async false

namespace Sys2Proof.Laws
open Sys2Proof

/-- A well-formed command brings at most 2^32 bytes into the block. -/
def Form.Statement (i : Instr) : Prop := i.wf = true → i.payload ≤ 2 ^ 32

theorem Form.tickEdge (a0 : Time) (a1 : Nat) : Form.Statement (.tickEdge a0 a1) := by
  intro _
  simp [Instr.payload]
theorem Form.tickInPulse (a0 : Time) (a1 : Nat) : Form.Statement (.tickInPulse a0 a1) := by
  intro _
  simp [Instr.payload]
theorem Form.flywheelEdge (a0 : Nat) : Form.Statement (.flywheelEdge a0) := by
  intro _
  simp [Instr.payload]
theorem Form.tickSourceLost : Form.Statement .tickSourceLost := by
  intro _
  simp [Instr.payload]
theorem Form.beaconReceived (a0 : PortId) (a1 : Time) (a2 : DWord) (a3 : BitVec 16) (a4 : BitVec 4) (a5 : Bool) (a6 : Nat) : Form.Statement (.beaconReceived a0 a1 a2 a3 a4 a5 a6) := by
  intro _
  simp [Instr.payload]
theorem Form.censusTimeout (a0 : Nat) : Form.Statement (.censusTimeout a0) := by
  intro _
  simp [Instr.payload]
theorem Form.domainVoteReceived (a0 : PortId) (a1 : Time) (a2 : FabPacket) (a3 : Nat) : Form.Statement (.domainVoteReceived a0 a1 a2 a3) := by
  intro w
  simp [Instr.wf, FabPacket.wf] at w
  simp [Instr.payload]
  omega
theorem Form.voteWaitExpiry (a0 : Nat) : Form.Statement (.voteWaitExpiry a0) := by
  intro _
  simp [Instr.payload]
theorem Form.frameOverrun : Form.Statement .frameOverrun := by
  intro _
  simp [Instr.payload]
theorem Form.writeOutComplete : Form.Statement .writeOutComplete := by
  intro _
  simp [Instr.payload]
theorem Form.vcoreRampDone (a0 : Site) : Form.Statement (.vcoreRampDone a0) := by
  intro _
  simp [Instr.payload]
theorem Form.jobControlStart (a0 : Party) : Form.Statement (.jobControlStart a0) := by
  intro _
  simp [Instr.payload]
theorem Form.jobControlEndAtCommit (a0 : Party) : Form.Statement (.jobControlEndAtCommit a0) := by
  intro _
  simp [Instr.payload]
theorem Form.jobControlEndNow (a0 : Party) : Form.Statement (.jobControlEndNow a0) := by
  intro _
  simp [Instr.payload]
theorem Form.serviceJobStart (a0 : Party) : Form.Statement (.serviceJobStart a0) := by
  intro _
  simp [Instr.payload]
theorem Form.serviceJobEnd (a0 : Party) : Form.Statement (.serviceJobEnd a0) := by
  intro _
  simp [Instr.payload]
theorem Form.jobStartCopiesDone (a0 : Option CopyFault) : Form.Statement (.jobStartCopiesDone a0) := by
  intro _
  simp [Instr.payload]
theorem Form.ownershipClaim (a0 : Party) : Form.Statement (.ownershipClaim a0) := by
  intro _
  simp [Instr.payload]
theorem Form.ownershipRelease (a0 : Party) : Form.Statement (.ownershipRelease a0) := by
  intro _
  simp [Instr.payload]
theorem Form.ownershipRevoke (a0 : Party) : Form.Statement (.ownershipRevoke a0) := by
  intro _
  simp [Instr.payload]
theorem Form.memoryWindowWrite (a0 : Party) (a1 : List Byte) : Form.Statement (.memoryWindowWrite a0 a1) := by
  intro w
  simp [Instr.wf] at w
  simp [Instr.payload]
  omega
theorem Form.memoryWindowRead (a0 : Party) (a1 : Nat) : Form.Statement (.memoryWindowRead a0 a1) := by
  intro _
  simp [Instr.payload]
theorem Form.numericFlagsClear (a0 : Party) (a1 : ClusterId) : Form.Statement (.numericFlagsClear a0 a1) := by
  intro _
  simp [Instr.payload]
theorem Form.diagnosticArm (a0 : Party) (a1 : ClusterId) (a2 : DWord) : Form.Statement (.diagnosticArm a0 a1 a2) := by
  intro _
  simp [Instr.payload]
theorem Form.seamResetNow (a0 : Party) (a1 : Site) : Form.Statement (.seamResetNow a0 a1) := by
  intro _
  simp [Instr.payload]
theorem Form.seamResetAtJobEnd (a0 : Party) (a1 : Site) : Form.Statement (.seamResetAtJobEnd a0 a1) := by
  intro _
  simp [Instr.payload]
theorem Form.seamResetWithdraw (a0 : Party) (a1 : Site) : Form.Statement (.seamResetWithdraw a0 a1) := by
  intro _
  simp [Instr.payload]
theorem Form.seamResetComplete (a0 : Site) (a1 : List LaneFail) : Form.Statement (.seamResetComplete a0 a1) := by
  intro _
  simp [Instr.payload]
theorem Form.computeDomainReset (a0 : Party) (a1 : Site) : Form.Statement (.computeDomainReset a0 a1) := by
  intro _
  simp [Instr.payload]
theorem Form.computeResetComplete (a0 : Site) (a1 : List TestFailure) (a2 : BitVec 8) : Form.Statement (.computeResetComplete a0 a1 a2) := by
  intro _
  simp [Instr.payload]
theorem Form.stagedFieldWrite (a0 : Party) (a1 : StagedRec) (a2 : BitVec 8) (a3 : List Byte) : Form.Statement (.stagedFieldWrite a0 a1 a2 a3) := by
  intro w
  simp [Instr.wf] at w
  simp [Instr.payload]
  omega
theorem Form.stagedCommitAtTick (a0 : Party) (a1 : StagedRec) (a2 : Time) : Form.Statement (.stagedCommitAtTick a0 a1 a2) := by
  intro _
  simp [Instr.payload]
theorem Form.stagedCommitNow (a0 : Party) (a1 : StagedRec) : Form.Statement (.stagedCommitNow a0 a1) := by
  intro _
  simp [Instr.payload]
theorem Form.stagedDiscard (a0 : Party) (a1 : StagedRec) : Form.Statement (.stagedDiscard a0 a1) := by
  intro _
  simp [Instr.payload]
theorem Form.objectWrite (a0 : Party) (a1 : BitVec 16) (a2 : BitVec 8) (a3 : List Byte) : Form.Statement (.objectWrite a0 a1 a2 a3) := by
  intro w
  simp [Instr.wf] at w
  simp [Instr.payload]
  omega
theorem Form.usdoSegment (a0 : Party) (a1 : BitVec 16) (a2 : BitVec 8) (a3 : Segment) : Form.Statement (.usdoSegment a0 a1 a2 a3) := by
  intro w
  cases a3 <;> simp_all [Instr.wf, Instr.payload]
theorem Form.usdoTimeout (a0 : Party) : Form.Statement (.usdoTimeout a0) := by
  intro _
  simp [Instr.payload]
theorem Form.powerStateRun (a0 : Party) : Form.Statement (.powerStateRun a0) := by
  intro _
  simp [Instr.payload]
theorem Form.powerStateHold (a0 : Party) : Form.Statement (.powerStateHold a0) := by
  intro _
  simp [Instr.payload]
theorem Form.powerStatePark (a0 : Party) : Form.Statement (.powerStatePark a0) := by
  intro _
  simp [Instr.payload]
theorem Form.powerStateQuiet (a0 : Party) : Form.Statement (.powerStateQuiet a0) := by
  intro _
  simp [Instr.payload]
theorem Form.powerStateChangeDone : Form.Statement .powerStateChangeDone := by
  intro _
  simp [Instr.payload]
theorem Form.rackBudgetWrite (a0 : Party) (a1 : Word) : Form.Statement (.rackBudgetWrite a0 a1) := by
  intro _
  simp [Instr.payload]
theorem Form.budgetTimeout : Form.Statement .budgetTimeout := by
  intro _
  simp [Instr.payload]
theorem Form.crownWitness (a0 : Party) (a1 : Word) : Form.Statement (.crownWitness a0 a1) := by
  intro _
  simp [Instr.payload]
theorem Form.lifetimeEnergyRead (a0 : Party) : Form.Statement (.lifetimeEnergyRead a0) := by
  intro _
  simp [Instr.payload]
theorem Form.attestationChallenge (a0 : Party) (a1 : List Byte) : Form.Statement (.attestationChallenge a0 a1) := by
  intro w
  simp [Instr.wf] at w
  simp [Instr.payload]
  omega
theorem Form.attestationReportReady (a0 : Half) : Form.Statement (.attestationReportReady a0) := by
  intro _
  simp [Instr.payload]
theorem Form.imageSetUpload (a0 : Party) (a1 : List Byte) : Form.Statement (.imageSetUpload a0 a1) := by
  intro w
  simp [Instr.wf] at w
  simp [Instr.payload]
  omega
theorem Form.activationClusterService (a0 : Party) : Form.Statement (.activationClusterService a0) := by
  intro _
  simp [Instr.payload]
theorem Form.activationFullRestart (a0 : Party) : Form.Statement (.activationFullRestart a0) := by
  intro _
  simp [Instr.payload]
theorem Form.defectListClearRequest (a0 : Party) (a1 : List Byte) : Form.Statement (.defectListClearRequest a0 a1) := by
  intro w
  simp [Instr.wf] at w
  simp [Instr.payload]
  omega
theorem Form.managementRoutesWrite (a0 : Party) (a1 : List Byte) : Form.Statement (.managementRoutesWrite a0 a1) := by
  intro w
  simp [Instr.wf] at w
  simp [Instr.payload]
  omega
theorem Form.managementRequest (a0 : MgmtRequest) : Form.Statement (.managementRequest a0) := by
  intro w
  simp [Instr.wf, MgmtRequest.wf] at w
  simp [Instr.payload]
  omega
theorem Form.managementForward (a0 : PortId) (a1 : FabPacket) : Form.Statement (.managementForward a0 a1) := by
  intro w
  simp [Instr.wf, FabPacket.wf] at w
  simp [Instr.payload]
  omega
theorem Form.nmtStart (a0 : Half) : Form.Statement (.nmtStart a0) := by
  intro _
  simp [Instr.payload]
theorem Form.nmtEnterPreOperational (a0 : Half) : Form.Statement (.nmtEnterPreOperational a0) := by
  intro _
  simp [Instr.payload]
theorem Form.nmtResetCommunication (a0 : Half) : Form.Statement (.nmtResetCommunication a0) := by
  intro _
  simp [Instr.payload]
theorem Form.nmtStop (a0 : Half) : Form.Statement (.nmtStop a0) := by
  intro _
  simp [Instr.payload]
theorem Form.nmtResetNode (a0 : Half) : Form.Statement (.nmtResetNode a0) := by
  intro _
  simp [Instr.payload]
theorem Form.nmtResetApplication (a0 : Half) : Form.Statement (.nmtResetApplication a0) := by
  intro _
  simp [Instr.payload]
theorem Form.nmtHeartbeat (a0 : Half) : Form.Statement (.nmtHeartbeat a0) := by
  intro _
  simp [Instr.payload]
theorem Form.crownHeartbeat (a0 : Half) : Form.Statement (.crownHeartbeat a0) := by
  intro _
  simp [Instr.payload]
theorem Form.emcySend (a0 : Half) : Form.Statement (.emcySend a0) := by
  intro _
  simp [Instr.payload]
theorem Form.engineWordIssue (a0 : ClusterId) : Form.Statement (.engineWordIssue a0) := by
  intro _
  simp [Instr.payload]
theorem Form.nop (a0 : ClusterId) : Form.Statement (.nop a0) := by
  intro _
  simp [Instr.payload]
theorem Form.seti (a0 : ClusterId) : Form.Statement (.seti a0) := by
  intro _
  simp [Instr.payload]
theorem Form.addi (a0 : ClusterId) : Form.Statement (.addi a0) := by
  intro _
  simp [Instr.payload]
theorem Form.br (a0 : ClusterId) : Form.Statement (.br a0) := by
  intro _
  simp [Instr.payload]
theorem Form.loop (a0 : ClusterId) : Form.Statement (.loop a0) := by
  intro _
  simp [Instr.payload]
theorem Form.testf (a0 : ClusterId) : Form.Statement (.testf a0) := by
  intro _
  simp [Instr.payload]
theorem Form.clrf (a0 : ClusterId) : Form.Statement (.clrf a0) := by
  intro _
  simp [Instr.payload]
theorem Form.boil (a0 : ClusterId) : Form.Statement (.boil a0) := by
  intro _
  simp [Instr.payload]
theorem Form.yield (a0 : ClusterId) : Form.Statement (.yield a0) := by
  intro _
  simp [Instr.payload]
theorem Form.fend (a0 : ClusterId) : Form.Statement (.fend a0) := by
  intro _
  simp [Instr.payload]
theorem Form.halt (a0 : ClusterId) : Form.Statement (.halt a0) := by
  intro _
  simp [Instr.payload]
theorem Form.taskSwitch (a0 : ClusterId) : Form.Statement (.taskSwitch a0) := by
  intro _
  simp [Instr.payload]
theorem Form.taskSwitchTimeout (a0 : ClusterId) : Form.Statement (.taskSwitchTimeout a0) := by
  intro _
  simp [Instr.payload]
theorem Form.fnop (a0 : ClusterId) (a1 : FSel) : Form.Statement (.fnop a0 a1) := by
  intro _
  simp [Instr.payload]
theorem Form.fmm (a0 : ClusterId) (a1 : FSel) : Form.Statement (.fmm a0 a1) := by
  intro _
  simp [Instr.payload]
theorem Form.fload (a0 : ClusterId) (a1 : FSel) : Form.Statement (.fload a0 a1) := by
  intro _
  simp [Instr.payload]
theorem Form.fdrain (a0 : ClusterId) (a1 : FSel) : Form.Statement (.fdrain a0 a1) := by
  intro _
  simp [Instr.payload]
theorem Form.fclear (a0 : ClusterId) (a1 : FSel) : Form.Statement (.fclear a0 a1) := by
  intro _
  simp [Instr.payload]
theorem Form.gnop (a0 : ClusterId) (a1 : GSel) : Form.Statement (.gnop a0 a1) := by
  intro _
  simp [Instr.payload]
theorem Form.gmm (a0 : ClusterId) (a1 : GSel) : Form.Statement (.gmm a0 a1) := by
  intro _
  simp [Instr.payload]
theorem Form.gload (a0 : ClusterId) (a1 : GSel) : Form.Statement (.gload a0 a1) := by
  intro _
  simp [Instr.payload]
theorem Form.gdrain (a0 : ClusterId) (a1 : GSel) : Form.Statement (.gdrain a0 a1) := by
  intro _
  simp [Instr.payload]
theorem Form.gclear (a0 : ClusterId) (a1 : GSel) : Form.Statement (.gclear a0 a1) := by
  intro _
  simp [Instr.payload]
theorem Form.gmerge (a0 : ClusterId) (a1 : GSel) : Form.Statement (.gmerge a0 a1) := by
  intro _
  simp [Instr.payload]
theorem Form.gmpush (a0 : ClusterId) (a1 : GSel) : Form.Statement (.gmpush a0 a1) := by
  intro _
  simp [Instr.payload]
theorem Form.gmpop (a0 : ClusterId) (a1 : GSel) : Form.Statement (.gmpop a0 a1) := by
  intro _
  simp [Instr.payload]
theorem Form.galt (a0 : ClusterId) (a1 : GSel) : Form.Statement (.galt a0 a1) := by
  intro _
  simp [Instr.payload]
theorem Form.mashSpillDone (a0 : ClusterId) (a1 : Fin 2) : Form.Statement (.mashSpillDone a0 a1) := by
  intro _
  simp [Instr.payload]
theorem Form.mashPrefetchArrival (a0 : ClusterId) (a1 : Fin 2) : Form.Statement (.mashPrefetchArrival a0 a1) := by
  intro _
  simp [Instr.payload]
theorem Form.unop (a0 : ClusterId) : Form.Statement (.unop a0) := by
  intro _
  simp [Instr.payload]
theorem Form.uapply (a0 : ClusterId) : Form.Statement (.uapply a0) := by
  intro _
  simp [Instr.payload]
theorem Form.ucast (a0 : ClusterId) : Form.Statement (.ucast a0) := by
  intro _
  simp [Instr.payload]
theorem Form.vnop (a0 : ClusterId) (a1 : VSel) : Form.Statement (.vnop a0 a1) := by
  intro _
  simp [Instr.payload]
theorem Form.vld (a0 : ClusterId) (a1 : VSel) : Form.Statement (.vld a0 a1) := by
  intro _
  simp [Instr.payload]
theorem Form.vst (a0 : ClusterId) (a1 : VSel) : Form.Statement (.vst a0 a1) := by
  intro _
  simp [Instr.payload]
theorem Form.vbin (a0 : ClusterId) (a1 : VSel) : Form.Statement (.vbin a0 a1) := by
  intro _
  simp [Instr.payload]
theorem Form.vfma (a0 : ClusterId) (a1 : VSel) : Form.Statement (.vfma a0 a1) := by
  intro _
  simp [Instr.payload]
theorem Form.vun (a0 : ClusterId) (a1 : VSel) : Form.Statement (.vun a0 a1) := by
  intro _
  simp [Instr.payload]
theorem Form.vcmp (a0 : ClusterId) (a1 : VSel) : Form.Statement (.vcmp a0 a1) := by
  intro _
  simp [Instr.payload]
theorem Form.vsel (a0 : ClusterId) (a1 : VSel) : Form.Statement (.vsel a0 a1) := by
  intro _
  simp [Instr.payload]
theorem Form.vred (a0 : ClusterId) (a1 : VSel) : Form.Statement (.vred a0 a1) := by
  intro _
  simp [Instr.payload]
theorem Form.vcvt (a0 : ClusterId) (a1 : VSel) : Form.Statement (.vcvt a0 a1) := by
  intro _
  simp [Instr.payload]
theorem Form.vldl (a0 : ClusterId) (a1 : VSel) : Form.Statement (.vldl a0 a1) := by
  intro _
  simp [Instr.payload]
theorem Form.vstl (a0 : ClusterId) (a1 : VSel) : Form.Statement (.vstl a0 a1) := by
  intro _
  simp [Instr.payload]
theorem Form.mnop (a0 : ClusterId) (a1 : MSel) : Form.Statement (.mnop a0 a1) := by
  intro _
  simp [Instr.payload]
theorem Form.mcopy (a0 : ClusterId) (a1 : MSel) : Form.Statement (.mcopy a0 a1) := by
  intro _
  simp [Instr.payload]
theorem Form.madd (a0 : ClusterId) (a1 : MSel) : Form.Statement (.madd a0 a1) := by
  intro _
  simp [Instr.payload]
theorem Form.msigAdd (a0 : ClusterId) (a1 : MSel) : Form.Statement (.msigAdd a0 a1) := by
  intro _
  simp [Instr.payload]
theorem Form.msigSubtract (a0 : ClusterId) (a1 : MSel) : Form.Statement (.msigSubtract a0 a1) := by
  intro _
  simp [Instr.payload]
theorem Form.msigSet (a0 : ClusterId) (a1 : MSel) : Form.Statement (.msigSet a0 a1) := by
  intro _
  simp [Instr.payload]
theorem Form.msigRelay (a0 : ClusterId) (a1 : MSel) : Form.Statement (.msigRelay a0 a1) := by
  intro _
  simp [Instr.payload]
theorem Form.instructionComplete (a0 : ClusterId) (a1 : Engine) (a2 : Nat) : Form.Statement (.instructionComplete a0 a1 a2) := by
  intro _
  simp [Instr.payload]
theorem Form.syncSignalArrival (a0 : Nat) : Form.Statement (.syncSignalArrival a0) := by
  intro _
  simp [Instr.payload]
theorem Form.relaySignalApply (a0 : Nat) : Form.Statement (.relaySignalApply a0) := by
  intro _
  simp [Instr.payload]
theorem Form.bulkWriteReceived (a0 : Nat) : Form.Statement (.bulkWriteReceived a0) := by
  intro _
  simp [Instr.payload]
theorem Form.mergeWriteReceived (a0 : Nat) : Form.Statement (.mergeWriteReceived a0) := by
  intro _
  simp [Instr.payload]
theorem Form.bulkReadReceived (a0 : Nat) : Form.Statement (.bulkReadReceived a0) := by
  intro _
  simp [Instr.payload]
theorem Form.readDataReceived (a0 : Nat) : Form.Statement (.readDataReceived a0) := by
  intro _
  simp [Instr.payload]
theorem Form.bulkAckReceived (a0 : Nat) : Form.Statement (.bulkAckReceived a0) := by
  intro _
  simp [Instr.payload]
theorem Form.rateRaise (a0 : BitVec 8) : Form.Statement (.rateRaise a0) := by
  intro _
  simp [Instr.payload]
theorem Form.treeContributionReceived (a0 : Nat) : Form.Statement (.treeContributionReceived a0) := by
  intro _
  simp [Instr.payload]
theorem Form.ordPacketRelease (a0 : Nat) : Form.Statement (.ordPacketRelease a0) := by
  intro _
  simp [Instr.payload]
theorem Form.arrayCheckEvent (a0 : Site) (a1 : Fin 8) (a2 : Fin 6) (a3 : Fin 132) (a4 : Fin 132) (a5 : Time) : Form.Statement (.arrayCheckEvent a0 a1 a2 a3 a4 a5) := by
  intro _
  simp [Instr.payload]
theorem Form.slateReleaseDone (a0 : Site) : Form.Statement (.slateReleaseDone a0) := by
  intro _
  simp [Instr.payload]
theorem Form.slateReloadDone (a0 : Site) : Form.Statement (.slateReloadDone a0) := by
  intro _
  simp [Instr.payload]
theorem Form.dataError (a0 : DataErrorAt) : Form.Statement (.dataError a0) := by
  intro _
  simp [Instr.payload]
theorem Form.computeDomainFailure (a0 : Site) : Form.Statement (.computeDomainFailure a0) := by
  intro _
  simp [Instr.payload]
theorem Form.seamDomainFailure (a0 : Site) : Form.Statement (.seamDomainFailure a0) := by
  intro _
  simp [Instr.payload]
theorem Form.stackChannelFailure (a0 : RimId) (a1 : Fin 64) : Form.Statement (.stackChannelFailure a0 a1) := by
  intro _
  simp [Instr.payload]
theorem Form.hazeThresholdExceeded (a0 : HazeChannel) : Form.Statement (.hazeThresholdExceeded a0) := by
  intro _
  simp [Instr.payload]
theorem Form.patrolScrub (a0 : RimId) (a1 : Nat) : Form.Statement (.patrolScrub a0 a1) := by
  intro _
  simp [Instr.payload]
theorem Form.stackRefresh (a0 : RimId) (a1 : Int) : Form.Statement (.stackRefresh a0 a1) := by
  intro _
  simp [Instr.payload]
theorem Form.stackRetrain (a0 : RimId) (a1 : Fin 32) : Form.Statement (.stackRetrain a0 a1) := by
  intro _
  simp [Instr.payload]
theorem Form.seamFlitReceived (a0 : SeamDir) (a1 : List (BitVec 72)) (a2 : Option (Fin 68)) : Form.Statement (.seamFlitReceived a0 a1 a2) := by
  intro _
  simp [Instr.payload]
theorem Form.seamLaneFailure (a0 : SeamDir) (a1 : Fin 68) : Form.Statement (.seamLaneFailure a0 a1) := by
  intro _
  simp [Instr.payload]
theorem Form.linkPauseEnd (a0 : SeamDir) : Form.Statement (.linkPauseEnd a0) := by
  intro _
  simp [Instr.payload]
theorem Form.seamHealthUpdate (a0 : UnitId) (a1 : SeamDir) : Form.Statement (.seamHealthUpdate a0 a1) := by
  intro _
  simp [Instr.payload]
theorem Form.seamDrainComplete (a0 : SeamDir) : Form.Statement (.seamDrainComplete a0) := by
  intro _
  simp [Instr.payload]
theorem Form.seamDrainTimeout (a0 : SeamDir) : Form.Statement (.seamDrainTimeout a0) := by
  intro _
  simp [Instr.payload]
theorem Form.fabricCodewordReceived (a0 : PortId) (a1 : Codeword) : Form.Statement (.fabricCodewordReceived a0 a1) := by
  intro w
  simp [Instr.wf, Codeword.wf] at w
  simp [Instr.payload]
  omega
theorem Form.fabricPacketReceived (a0 : PortId) (a1 : Time) (a2 : FabPacket) : Form.Statement (.fabricPacketReceived a0 a1 a2) := by
  intro w
  simp [Instr.wf, FabPacket.wf] at w
  simp [Instr.payload]
  omega
theorem Form.fabricLaneFailure (a0 : PortId) (a1 : Fin 8) : Form.Statement (.fabricLaneFailure a0 a1) := by
  intro _
  simp [Instr.payload]
theorem Form.fabricHealthUpdate (a0 : BitVec 12) (a1 : PortId) (a2 : Bool) : Form.Statement (.fabricHealthUpdate a0 a1 a2) := by
  intro _
  simp [Instr.payload]
theorem Form.portDrainComplete (a0 : PortId) : Form.Statement (.portDrainComplete a0) := by
  intro _
  simp [Instr.payload]
theorem Form.portDrainTimeout (a0 : PortId) : Form.Statement (.portDrainTimeout a0) := by
  intro _
  simp [Instr.payload]
theorem Form.powerGood (a0 : Half) (a1 : Time) : Form.Statement (.powerGood a0 a1) := by
  intro _
  simp [Instr.payload]
theorem Form.startUpAgreement (a0 : Time) (a1 : TrainingReport) : Form.Statement (.startUpAgreement a0 a1) := by
  intro _
  simp [Instr.payload]
theorem Form.firmwareChunkReceived (a0 : Site) (a1 : Fin 8) (a2 : Chunk) : Form.Statement (.firmwareChunkReceived a0 a1 a2) := by
  intro w
  simp [Instr.wf, Chunk.wf] at w
  simp [Instr.payload]
  omega
theorem Form.endOfPassReceived (a0 : Site) (a1 : Fin 8) (a2 : Word) : Form.Statement (.endOfPassReceived a0 a1 a2) := by
  intro _
  simp [Instr.payload]
theorem Form.repairRequestReceived (a0 : Site) (a1 : Fin 8) (a2 : List (Nat × Nat)) : Form.Statement (.repairRequestReceived a0 a1 a2) := by
  intro _
  simp [Instr.payload]
theorem Form.protectiveTrip (a0 : Half) (a1 : TripCause) : Form.Statement (.protectiveTrip a0 a1) := by
  intro _
  simp [Instr.payload]
theorem Form.droopTrip (a0 : Site) (a1 : Fin 2) (a2 : Bool) : Form.Statement (.droopTrip a0 a1 a2) := by
  intro _
  simp [Instr.payload]
theorem Form.droopHoldExpiry (a0 : Site) : Form.Statement (.droopHoldExpiry a0) := by
  intro _
  simp [Instr.payload]
theorem Form.controlStep (a0 : ControlInputs) : Form.Statement (.controlStep a0) := by
  intro _
  simp [Instr.payload]
theorem Form.calibrationWindow (a0 : CalibrationInputs) : Form.Statement (.calibrationWindow a0) := by
  intro _
  simp [Instr.payload]
theorem Form.energyIntegration (a0 a1 : Nat) : Form.Statement (.energyIntegration a0 a1) := by
  intro _
  simp [Instr.payload]
theorem Form.lifetimeEnergySave : Form.Statement .lifetimeEnergySave := by
  intro _
  simp [Instr.payload]
theorem Form.lowFlowWarning (a0 : Nat) : Form.Statement (.lowFlowWarning a0) := by
  intro _
  simp [Instr.payload]
theorem Form.crownRenewal : Form.Statement .crownRenewal := by
  intro _
  simp [Instr.payload]
theorem Form.crownRenewalReceived : Form.Statement .crownRenewalReceived := by
  intro _
  simp [Instr.payload]
theorem Form.crownTake (a0 : Half) : Form.Statement (.crownTake a0) := by
  intro _
  simp [Instr.payload]
theorem Form.crownUnconfirmed (a0 : Half) : Form.Statement (.crownUnconfirmed a0) := by
  intro _
  simp [Instr.payload]
theorem Form.crossHalfCommand : Form.Statement .crossHalfCommand := by
  intro _
  simp [Instr.payload]
theorem Form.crossHalfTimeout : Form.Statement .crossHalfTimeout := by
  intro _
  simp [Instr.payload]
theorem Form.submit (a0 : Datagram) (a1 : Time) : Form.Statement (.submit a0 a1) := by
  intro w
  simp [Instr.wf, Datagram.wf] at w
  simp [Instr.payload]
  omega
theorem Form.prompt (a0 : Datagram) : Form.Statement (.prompt a0) := by
  intro w
  simp [Instr.wf, Datagram.wf] at w
  simp [Instr.payload]
  omega
theorem Form.ack (a0 : Datagram) : Form.Statement (.ack a0) := by
  intro w
  simp [Instr.wf, Datagram.wf] at w
  simp [Instr.payload]
  omega
theorem Form.cancel (a0 : Datagram) : Form.Statement (.cancel a0) := by
  intro w
  simp [Instr.wf, Datagram.wf] at w
  simp [Instr.payload]
  omega
theorem Form.tokensResend (a0 : RequestKey) : Form.Statement (.tokensResend a0) := by
  intro _
  simp [Instr.payload]
theorem Form.promptTimeout (a0 : RequestKey) : Form.Statement (.promptTimeout a0) := by
  intro _
  simp [Instr.payload]
theorem Form.queueWaitExpiry (a0 : RequestKey) : Form.Statement (.queueWaitExpiry a0) := by
  intro _
  simp [Instr.payload]
theorem Form.batchAdmission : Form.Statement .batchAdmission := by
  intro _
  simp [Instr.payload]
theorem Form.pageIn (a0 : Nat) (a1 : Fin 256) : Form.Statement (.pageIn a0 a1) := by
  intro _
  simp [Instr.payload]
theorem Form.pageOut (a0 : Nat) (a1 : Fin 256) : Form.Statement (.pageOut a0 a1) := by
  intro _
  simp [Instr.payload]
theorem Form.sampleToken (a0 : Nat) : Form.Statement (.sampleToken a0) := by
  intro _
  simp [Instr.payload]
theorem Form.serviceCutoff : Form.Statement .serviceCutoff := by
  intro _
  simp [Instr.payload]
theorem Form.neighbourSolicitation (a0 : PortId) (a1 : Ip6In) (a2 : BitVec 48) (a3 : BitVec 128) : Form.Statement (.neighbourSolicitation a0 a1 a2 a3) := by
  intro _
  simp [Instr.payload]
theorem Form.echoRequest (a0 : PortId) (a1 : Ip6In) (a2 : BitVec 48) (a3 : List Byte) : Form.Statement (.echoRequest a0 a1 a2 a3) := by
  intro w
  simp [Instr.wf] at w
  simp [Instr.payload]
  omega
theorem Form.lossOfInput : Form.Statement .lossOfInput := by
  intro _
  simp [Instr.payload]
theorem Form.southMaltsterClaims : Form.Statement .southMaltsterClaims := by
  intro _
  simp [Instr.payload]
theorem Form.selfTestComplete (a0 : Site) (a1 : List TestFailure) : Form.Statement (.selfTestComplete a0 a1) := by
  intro _
  simp [Instr.payload]
theorem Form.fabricPortTrained (a0 : PortId) (a1 : BitVec 8) (a2 : BitVec 12) (a3 : BitVec 16) : Form.Statement (.fabricPortTrained a0 a1 a2 a3) := by
  intro _
  simp [Instr.payload]
theorem Form.ethernetLinkDown (a0 : PortId) : Form.Statement (.ethernetLinkDown a0) := by
  intro _
  simp [Instr.payload]
theorem Form.ethernetLinkUp (a0 : PortId) : Form.Statement (.ethernetLinkUp a0) := by
  intro _
  simp [Instr.payload]
theorem Form.discardedDatagram (a0 : PortId) (a1 : DiscardReason) : Form.Statement (.discardedDatagram a0 a1) := by
  intro w
  cases a1 <;> simp_all [Instr.wf, DiscardReason.wf, Datagram.wf, Instr.payload]
  omega
theorem Form.inletAbove45C (a0 : Int) : Form.Statement (.inletAbove45C a0) := by
  intro _
  simp [Instr.payload]

end Sys2Proof.Laws
end

