-- ==== Sys2Proof/Laws/Sequencer.lean ====
section
/-!
SUPPORT. What a sequencer command does when its word may take effect: the wait served, then the effect.
-/
namespace Sys2Proof.Machine
open Sys2Proof

set_option Elab.async false

/-- A range with no upset in it checks good and changes nothing. -/
theorem checkPad_clean (s : State) (k a n : Nat) (h : upsetsIn s.mem 0 (memKey s a) n = []) :
    checkPad s k a n = (s, none) := by
  simp [checkPad, h]

theorem fetchWord_clean (s : State) (k pc : Nat) (use : State → State)
    (h : upsetsIn s.mem 0 (memKey s (wordAddr k (clusterAt s k).cur.entry pc)) 16 = []) :
    fetchWord s k pc use = use s := by
  simp [fetchWord, checkPad_clean _ _ _ _ h]

/-- The state in which a sequencer word has come to its wait. -/
def joinedState (s : State) (k : Nat) (w : IWord) : State :=
  if wWaitObj w = noObj || (clusterAt s k).seqWait then s else modCluster s k (fun c => Claim.seqJoined c w)

/-- The state in which a sequencer word's own effect happens: its wait, if it has one, over. -/
def servedState (s : State) (k : Nat) (w : IWord) : State :=
  if wWaitObj w = noObj then s
  else modCluster (joinedState s k w) k (fun c => { c with seqWait := false, seqMet := false })

/-- The one thing a sequencer command does when its word may take effect. -/
theorem runSeq_of_seqWord (s : State) (k op : Nat) (w : IWord) (cond : State → Bool) (eff : State → Nat → IWord → State)
    (h : Claim.SeqWord s k op w) (hc : cond (joinedState s k w) = true) :
    runSeq s k op cond eff = eff (servedState s k w) (Claim.pcOf s k) w := by
  obtain ⟨hm, hw, hcl, hop, hup, hcode, hbar, hwait⟩ := h
  simp only [Claim.pcOf] at *
  unfold runSeq
  simp only [hm, Bool.not_true, Bool.false_eq_true, ↓reduceIte, hw, hcl, hop, decide_true, Bool.and_self]
  rw [fetchWord_clean _ _ _ _ hup]
  have hb : (wBarrier w && !(clusterAt s k).idle) = false := by
    cases hw : wBarrier w
    · rfl
    · simp [hbar hw]
  simp only [hcode, ne_eq, not_true_eq_false, ↓reduceIte, hb, Bool.false_eq_true, seqWaits, servedState]
  by_cases hn : wWaitObj w = noObj
  · simp only [joinedState, hn, decide_true, Bool.true_or, ↓reduceIte] at hc ⊢
    rw [if_pos hc]
  · have hmet := hwait.resolve_left hn
    have hj : (if (clusterAt s k).seqWait = true then s else
        modCluster s k (fun c => beginWait { c with seqWait := true } seqWaiter (wWaitObj w) (wWaitN w))) = joinedState s k w := by
      unfold joinedState
      by_cases hs : (clusterAt s k).seqWait = true
      · simp [hs]
      · simp only [hs, hn, decide_false, Bool.or_self, Bool.false_eq_true, ↓reduceIte, modCluster, Claim.seqJoined]
    have hq : (clusterAt (joinedState s k w) k).seqMet = true := by
      unfold joinedState
      by_cases hs : (clusterAt s k).seqWait = true
      · simpa [hs, Claim.seqJoined] using hmet
      · simpa [hs, hn, clusterAt_modCluster_self] using hmet
    simp only [hn, ↓reduceIte, hj, hq, hc, Bool.and_self]

theorem joinedState_onlyCluster (s : State) (k : Nat) (w : IWord) : Claim.OnlyCluster s (joinedState s k w) k := by
  unfold joinedState
  split
  · exact onlyCluster_refl s k
  · exact onlyCluster_modCluster _ _ _

theorem servedState_onlyCluster (s : State) (k : Nat) (w : IWord) : Claim.OnlyCluster s (servedState s k w) k := by
  unfold servedState
  split
  · exact onlyCluster_refl s k
  · exact onlyCluster_trans (joinedState_onlyCluster s k w) (onlyCluster_modCluster _ _ _)

/-- The cluster of the word once it has come to its wait. -/
theorem joinedState_self (s : State) (k : Nat) (w : IWord) (h : wWaitObj w ≠ noObj) :
    clusterAt (joinedState s k w) k = Claim.seqJoined (clusterAt s k) w := by
  unfold joinedState
  by_cases hs : (clusterAt s k).seqWait = true
  · simp [hs, Claim.seqJoined]
  · simp [hs, h, clusterAt_modCluster_self]

/-- Coming to a wait changes objects and waits alone. -/
theorem seqJoined_waits (c : Cluster) (w : IWord) : WaitsOnly c { Claim.seqJoined c w with seqWait := c.seqWait } := by
  unfold Claim.seqJoined
  split
  · exact waitsOnly_refl c
  · have h := waitsOnly_beginWait { c with seqWait := true } seqWaiter (wWaitObj w) (wWaitN w)
    exact ⟨by rw [h.1], fun e => h.2 e⟩

theorem servedState_waits (s : State) (k : Nat) (w : IWord) :
    WaitsOnly (clusterAt s k) { clusterAt (servedState s k w) k with seqWait := (clusterAt s k).seqWait } := by
  unfold servedState
  split
  · exact waitsOnly_refl _
  · rename_i h
    rw [clusterAt_modCluster_self, joinedState_self s k w h]
    have g := seqJoined_waits (clusterAt s k) w
    exact ⟨congrArg (fun d : Cluster => { d with seqMet := false }) g.1, fun e => g.2 e⟩

theorem servedState_self (s : State) (k : Nat) (w : IWord) :
    clusterAt (servedState s k w) k = { clusterAt s k with
      engines := (clusterAt (servedState s k w) k).engines, sync := (clusterAt (servedState s k w) k).sync
      seqWait := (clusterAt (servedState s k w) k).seqWait, seqMet := (clusterAt (servedState s k w) k).seqMet } := by
  have h := (servedState_waits s k w).1
  calc clusterAt (servedState s k w) k
      = { ({ clusterAt (servedState s k w) k with seqWait := (clusterAt s k).seqWait } : Cluster) with
          seqWait := (clusterAt (servedState s k w) k).seqWait } := rfl
    _ = _ := by rw [h]

theorem servedState_engine (s : State) (k e : Nat) (w : IWord) : Claim.SameButMet s (servedState s k w) k e :=
  (servedState_waits s k w).2 e

theorem servedState_free (s : State) (k : Nat) (w : IWord) (h : wWaitObj w = noObj) : servedState s k w = s := by
  simp [servedState, h]

theorem servedState_sync (s : State) (k j : Nat) (w : IWord) (h : wWaitObj w ≠ noObj) :
    (clusterAt (servedState s k w) k).syncObj j = (Claim.seqJoined (clusterAt s k) w).syncObj j := by
  unfold servedState
  rw [if_neg h, clusterAt_modCluster_self, joinedState_self s k w h]
  rfl

theorem servedState_sync_ne (s : State) (k j : Nat) (w : IWord) (h : j ≠ wWaitObj w) :
    (clusterAt (servedState s k w) k).syncObj j = (clusterAt s k).syncObj j := by
  by_cases hn : wWaitObj w = noObj
  · rw [servedState_free s k w hn]
  · rw [servedState_sync s k j w hn]
    unfold Claim.seqJoined
    split
    · rfl
    · rw [beginWait_syncObj_ne _ _ _ _ _ h]
      rfl

theorem servedState_takes (s : State) (k : Nat) (w : IWord) (h : wWaitObj w ≠ noObj) (hs : (clusterAt s k).seqWait = false)
    (hw : ((clusterAt s k).syncObj (wWaitObj w)).waiters = [])
    (hn : wWaitN w ≤ ((clusterAt s k).syncObj (wWaitObj w)).value.toNat) :
    ((clusterAt (servedState s k w) k).syncObj (wWaitObj w)).value.toNat =
      ((clusterAt s k).syncObj (wWaitObj w)).value.toNat - wWaitN w := by
  rw [servedState_sync s k _ w h]
  unfold Claim.seqJoined
  rw [if_neg (by simp [hs]), beginWait_takes { clusterAt s k with seqWait := true } _ _ _ hw hn]
  have := ((clusterAt s k).syncObj (wWaitObj w)).value.isLt
  show (BitVec.ofNat 16 (((clusterAt s k).syncObj (wWaitObj w)).value.toNat - wWaitN w)).toNat = _
  rw [BitVec.toNat_ofNat]
  exact Nat.mod_eq_of_lt (by omega)

/-- The resident task is listed wherever a word stands at its PC. -/
theorem seqWord_hasTask (s : State) (k pc : Nat) (w : IWord)
    (h : wordAt s k (clusterAt s k).cur.entry pc = some w) :
    (clusterAt s k).hasTask (clusterAt s k).resident = true := by
  cases hh : (clusterAt s k).tasks.find? (fun x => x.entry.task == (clusterAt s k).resident) with
  | none =>
    simp [Cluster.cur, Cluster.task, hh, wordAt, taskEmpty, streamWords] at h
  | some x =>
    have := List.find?_some hh
    have hm := List.mem_of_find?_eq_some hh
    exact List.any_eq_true.mpr ⟨x, hm, this⟩

theorem servedState_cur (s : State) (k : Nat) (w : IWord) :
    (clusterAt (servedState s k w) k).cur = (clusterAt s k).cur := by
  rw [servedState_self]
  rfl

/-- A sequencer word whose effect changes the resident task alone. -/
theorem modCur_servedState (s : State) (k : Nat) (w : IWord) (f : Task → Task) (hf : ∀ x, (f x).entry = x.entry)
   (ht : (clusterAt s k).hasTask (clusterAt s k).resident = true) :
   let t := modCur (servedState s k w) k f
   Claim.SeqFrame s t k w ∧ Claim.SeqRest s t k ∧ (clusterAt t k).cur = f (clusterAt s k).cur := by
  intro t
  have h1 := servedState_self s k w
  have hc : clusterAt t k = (clusterAt (servedState s k w) k).modTask (clusterAt s k).resident f := by
    simp only [t, modCur, clusterAt_modCluster_self]
    rw [h1]
  have hres : (clusterAt (servedState s k w) k).resident = (clusterAt s k).resident := by rw [h1]
  have hts : (clusterAt (servedState s k w) k).tasks = (clusterAt s k).tasks := by rw [h1]
  refine ⟨⟨?_, ?_, ?_, ?_, ?_, ?_, ?_⟩, ?_, ?_⟩
  · exact onlyCluster_trans (servedState_onlyCluster s k w) (onlyCluster_modCluster _ _ _)
  · intro n hn
    rw [hc, Cluster.task_modTask_ne _ _ _ _ hf hn]
    simp [Cluster.task, hts]
  · intro j hj
    rw [hc]
    exact servedState_sync_ne s k j w hj
  · intro hj
    rw [hc]
    exact servedState_sync s k _ w hj
  · intro hj hs hw hn
    rw [hc]
    exact servedState_takes s k w hj hs hw hn
  · intro d
    unfold Claim.SameButMet engineAt
    rw [hc]
    exact servedState_engine s k d w
  · intro hn
    rw [hc, servedState_free s k w hn]
    rfl
  · unfold Claim.SeqRest
    rw [hc]
    conv => lhs; rw [h1]
    simp only [Cluster.modTask, hts]
  · rw [hc]
    unfold Cluster.cur
    have : ((clusterAt (servedState s k w) k).modTask (clusterAt s k).resident f).resident = (clusterAt s k).resident := by
      simp [Cluster.modTask, hres]
    rw [this, Cluster.task_modTask_self _ _ _ hf]
    · simp [Cluster.task, hts]
    · simpa [Cluster.hasTask, hts] using ht

theorem idxReg_put (l : List Word) (hl : l.length = 7) (r q : Nat) (hr : r < 8) (hq : q < 8) (v : Word) :
    idxReg (putIdx l q v) r = if r = q ∧ r ≠ 0 then v else idxReg l r := by
  unfold idxReg putIdx
  by_cases h0 : r = 0
  · simp [h0]
  · by_cases hq0 : q = 0
    · have : ¬ (r = q) := by omega
      simp [h0, hq0]
    · simp only [h0, hq0, ↓reduceIte]
      by_cases h : r = q
      · subst h
        have : r - 1 < l.length := by omega
        simp [List.getD_eq_getElem?_getD, this, h0]
      · have hne : q - 1 ≠ r - 1 := by omega
        simp [List.getD_eq_getElem?_getD, List.getElem?_set_ne hne, h]

theorem seqReg_lt (w : IWord) : seqReg w < 8 := by
  unfold seqReg fld bitsAt; exact Nat.mod_lt _ (by decide)

theorem taken_iff (cond : Nat) (v : Word) : branchHolds cond v = true ↔ Claim.Taken cond v := by
  unfold branchHolds Claim.Taken
  split <;> simp_all

theorem tflagsTest (f : BitVec 16) (m : Nat) (hm : m < 32) :
    (f.toNat &&& m != 0) = true ↔ f &&& BitVec.ofNat 16 m ≠ 0 := by
  have : (f &&& BitVec.ofNat 16 m).toNat = f.toNat &&& m := by
    simp [BitVec.toNat_and, Nat.mod_eq_of_lt (show m < 65536 by omega)]
  rw [bne_iff_ne, ← this]
  constructor
  · intro h h2; exact h (by rw [h2]; rfl)
  · intro h h2; exact h (BitVec.eq_of_toNat_eq (by rw [h2]; rfl))

theorem fld_lt (w : IWord) (lo n : Nat) : fld w lo n < 2 ^ n := by
  unfold fld bitsAt; exact Nat.mod_lt _ (Nat.two_pow_pos n)


end Sys2Proof.Machine
end

