-- ==== Sys2Proof/Tests/Slice0.lean ====
section
/-!
SUPPORT. Tests: terms that are not well-formed and that the check refuses; words and values that the spec writes out; one
step on a small state; and for each obligation a state and operands that meet its hypotheses, clause by clause.
-/
namespace Sys2Proof.Tests
open Sys2Proof Sys2Proof.Machine

/-! ### Small states -/

/-- Words of a stream as the bytes of cluster 0's scratchpad hold them. -/
def streamCells (i : Nat) : List IWord → List Host.Cell
  | [] => []
  | w :: r => (leBytes 16 w.toNat).zipIdx.map (fun b => (padBase + 64 + 16 * i + b.2, b.1)) ++ streamCells (i + 1) r

/-- The stream entry of the test job: five lines, so that words 0 to 15 are in the stream. -/
def entry0 : StreamEntry := { baseLine := 0, lines := 5, entryPc := 0, context := 0x1000, task := 0 }

/-- The test job's plan: chiplet 0, one task on cluster 0. -/
def plan0 : JobPlan where
  placement := [0, 1, 2, 3, 4, 5, 6, 7]
  carry := []
  streams := [(0, [entry0])]
  back := []
  trees := []
  rings := []
  circuits := []
  fabTrees := []
  members := []
  plan := none
  preload := []

/-- The task of cluster 0 at its first word, I1 at 3. -/
def task0 : Task := { taskEmpty with
  entry := entry0, frameDone := false, halted := false, ran := true, idx := [3, 0, 0, 0, 0, 0, 0], tflags := 5 }

/-- Cluster 0 issuing. -/
def cl0 : Cluster := { clusterEmpty with tasks := [task0], seq := .issuing }

/-- A module that runs the test job on site 0, its first words as given. -/
def running (words : List IWord) : State := { State.reset with
  job := { State.reset.job with state := .running, plan := some plan0 }
  tick := { State.reset.tick with on := true, issueOn := true }
  topo := setRemap { State.reset.topo with
    sites := [(0, { siteDefault State.reset.topo 0 with logical := some 0 })], chiplets := 1 }
    [(0, { site := 0, valid := true, subst := false })]
  clusters := [(0, cl0)]
  mem := { State.reset.mem with cells := streamCells 0 words } }

/-- A state in ride-through mode. -/
def riding (s : State) : State := { s with tick := { s.tick with cfg := { s.tick.cfg with ride := 1 } } }

/-- The state with cluster 0 changed. -/
def withCl (s : State) (f : Cluster → Cluster) : State := modCluster s 0 f

/-- A sequencer word: opcode, no object waited for or signalled, and the fields above bit 40. -/
def seqW (op : Nat) (rest : Nat) : IWord := BitVec.ofNat 128 (1 + 2 ^ 6 * op + 2 ^ 14 * 63 + 2 ^ 24 * 63 + rest)
/-- A word of an engine. -/
def engW (e op : Nat) (rest : Nat) : IWord := BitVec.ofNat 128 (2 ^ 2 * e + 2 ^ 6 * op + 2 ^ 14 * 63 + 2 ^ 24 * 63 + rest)

/-! ### The spec's own words (04 Table 4.8a) -/

theorem test_word_br : let w : IWord := 0x000000000000000D_00002100_3F0FC0C1#128
    wClass w = 1 ∧ wOpcode w = 3 ∧ seqReg w = 1 ∧ fld w 44 3 = 2 ∧ seqTarget w = 13 ∧ wWaitObj w = noObj ∧ wSigObj w = 63 := by
  decide
theorem test_word_boil : let w : IWord := 0x00000000003F0101_00000000_3F0FC1C1#128
    wOpcode w = 7 ∧ boilOf w = { ahead := 1, span := 1, level := 15, mask := 3, left := 1 } := by decide
theorem test_word_fend : let w : IWord := 0x0000000000100002_00000000_3F0FC241#128
    wOpcode w = 9 ∧ bitFld w 84 = true ∧ seqTarget w = 2 := by decide



/-! ### Sequencer words that meet the statements' hypotheses -/

/-- The bit at a place of a word. -/
def at_ (v lo : Nat) : Nat := v * 2 ^ lo
/-- The word that follows the BARRIER and the wait of a word: object j, n units. -/
def waitW (op j n rest : Nat) : IWord := BitVec.ofNat 128 (1 + 2 ^ 6 * op + 2 ^ 14 * j + 2 ^ 20 * n + 2 ^ 24 * 63 + rest)
/-- A second task, ready, as task n of the test job. -/
def taskN (n : Nat) : Task := { task0 with entry := { entry0 with task := n }, ran := false }
/-- Cluster 0 with tasks 0 and 3, task 0 resident. -/
def twoTasks (s : State) : State := withCl s (fun c => { c with tasks := [task0, taskN 3] })
/-- Cluster 0 in a switch to task n of a kind. -/
def inSwitch (kind n : Nat) (s : State) : State :=
  withCl (twoTasks s) (fun c => { c with seq := .switching, switchTo := some n, switchKind := kind })
/-- An engine's queue. -/
def queued (s : State) (e : Nat) (q : QInstr) : State := modEngine s 0 e (fun r => { r with queue := [q] })

theorem test_wit_nop : (clusterAt (running [seqW 0 0]) 0).cur.idx.length = 7 ∧
    Claim.SeqWord (running [seqW 0 0]) 0 0 (seqW 0 0) := by unfold Claim.SeqWord Claim.pcOf; decide
/-- A wait that holds: object 63 is none, object 0 holds 1 unit. -/
theorem test_wit_nop_waits : Claim.SeqWord (withCl (running [waitW 0 0 1 0])
    (fun c => { c with sync := [(0, { syncEmpty with value := 1 })] })) 0 0 (waitW 0 0 1 0) := by
  unfold Claim.SeqWord Claim.pcOf; decide
theorem test_wit_seti : Claim.SeqWord (running [seqW 1 (at_ 7 40 + at_ 0xFFFFFFFF 64)]) 0 1
    (seqW 1 (at_ 7 40 + at_ 0xFFFFFFFF 64)) := by unfold Claim.SeqWord Claim.pcOf; decide
/-- A write to I0 is a form of the instruction too. -/
theorem test_wit_seti_i0 : Claim.SeqWord (running [seqW 1 (at_ 5 64)]) 0 1 (seqW 1 (at_ 5 64)) := by
  unfold Claim.SeqWord Claim.pcOf; decide
theorem test_wit_addi : Claim.SeqWord (running [seqW 2 (at_ 1 40 + at_ 0xFFFFFFFD 64)]) 0 2
    (seqW 2 (at_ 1 40 + at_ 0xFFFFFFFD 64)) := by unfold Claim.SeqWord Claim.pcOf; decide

/-- A branch to the last word of the stream and one past it. -/
def brIn : IWord := seqW 3 (at_ 15 64)
def brOut : IWord := seqW 3 (at_ 16 64)
def brNot : IWord := seqW 3 (at_ 1 40 + at_ 1 44 + at_ 16 64)
theorem test_wit_br_taken : Claim.SeqWord (running [brIn]) 0 3 brIn ∧ Claim.Taken (fld brIn 44 3) 0 ∧
    seqTarget brIn < streamWords (clusterAt (running [brIn]) 0).cur.entry := by
  unfold Claim.SeqWord Claim.pcOf Claim.Taken; decide
theorem test_wit_br_not_taken : Claim.SeqWord (running [brNot]) 0 3 brNot ∧
    ¬ Claim.Taken (fld brNot 44 3) (curReg (running [brNot]) 0 (seqReg brNot)) := by
  unfold Claim.SeqWord Claim.pcOf Claim.Taken; decide
theorem test_wit_br_outside : Claim.SeqWord (running [brOut]) 0 3 brOut ∧ Claim.Taken (fld brOut 44 3) 0 ∧
    ¬ seqTarget brOut < streamWords (clusterAt (running [brOut]) 0).cur.entry := by
  unfold Claim.SeqWord Claim.pcOf Claim.Taken; decide
def loopIn : IWord := seqW 4 (at_ 1 40 + at_ 15 64)
def loopOut : IWord := seqW 4 (at_ 1 40 + at_ 16 64)
theorem test_wit_loop : Claim.SeqWord (running [loopIn]) 0 4 loopIn ∧ seqReg loopIn ≠ 0 ∧
    curReg (running [loopIn]) 0 (seqReg loopIn) ≠ 1 ∧
    seqTarget loopIn < streamWords (clusterAt (running [loopIn]) 0).cur.entry := by
  unfold Claim.SeqWord Claim.pcOf; decide
theorem test_wit_loop_outside : Claim.SeqWord (running [loopOut]) 0 4 loopOut ∧ seqReg loopOut ≠ 0 ∧
    curReg (running [loopOut]) 0 (seqReg loopOut) ≠ 1 ∧
    ¬ seqTarget loopOut < streamWords (clusterAt (running [loopOut]) 0).cur.entry := by
  unfold Claim.SeqWord Claim.pcOf; decide
def testfIn : IWord := seqW 5 (at_ 15 64 + at_ 4 96)
def testfOut : IWord := seqW 5 (at_ 16 64 + at_ 4 96)
theorem test_wit_testf : Claim.SeqWord (running [testfIn]) 0 5 testfIn ∧ (clusterAt (running [testfIn]) 0).idle = true ∧
    (clusterAt (running [testfIn]) 0).cur.tflags &&& BitVec.ofNat 16 (fld testfIn 96 5) ≠ 0 ∧
    seqTarget testfIn < streamWords (clusterAt (running [testfIn]) 0).cur.entry := by
  unfold Claim.SeqWord Claim.pcOf; decide
theorem test_wit_testf_outside : Claim.SeqWord (running [testfOut]) 0 5 testfOut ∧
    (clusterAt (running [testfOut]) 0).idle = true ∧
    (clusterAt (running [testfOut]) 0).cur.tflags &&& BitVec.ofNat 16 (fld testfOut 96 5) ≠ 0 ∧
    ¬ seqTarget testfOut < streamWords (clusterAt (running [testfOut]) 0).cur.entry := by
  unfold Claim.SeqWord Claim.pcOf; decide
theorem test_wit_clrf : Claim.SeqWord (running [seqW 6 (at_ 31 96)]) 0 6 (seqW 6 (at_ 31 96)) := by
  unfold Claim.SeqWord Claim.pcOf; decide
def boilW : IWord := 0x00000000003F0101_00000000_3F0FC1C1#128
theorem test_wit_boil : Claim.SeqWord (running [boilW]) 0 7 boilW := by unfold Claim.SeqWord Claim.pcOf; decide

/-- An FMM with its extension word: FP32 tiles at lines 2048 and 4096. -/
def fmmX : IWord := BitVec.ofNat 128 (2 + at_ 7680 8 + at_ 7681 32)
def fmmW : IWord := engW 0 1 (at_ 2048 40 + at_ 4096 64 + at_ 5 96 + at_ 5 100 + at_ 3 114 + at_ 3 116 + at_ 1 112)
theorem test_wit_engine_word : Claim.EngineWord (running [engW 0 0 0]) 0 none (engW 0 0 0) 0 ∧
    issueCode 0 (clusterAt (running [engW 0 0 0]) 0) none (engW 0 0 0) = 0 ∧ wBarrier (engW 0 0 0) = false ∧
    ((clusterAt (running [engW 0 0 0]) 0).engine 0).queue.length < 16 := by
  unfold Claim.EngineWord Claim.pcOf; decide
theorem test_wit_engine_word_ext : Claim.EngineWord (running [fmmX, fmmW]) 0 (some fmmX) fmmW 1 ∧
    issueCode 0 (clusterAt (running [fmmX, fmmW]) 0) (some fmmX) fmmW = 0 := by
  unfold Claim.EngineWord Claim.pcOf; decide
/-- Opcode 255 of F0 is not one of Table 5.4. -/
theorem test_wit_stream_fault : Claim.EngineWord (running [engW 0 255 0]) 0 none (engW 0 255 0) 0 ∧
    issueCode 0 (clusterAt (running [engW 0 255 0]) 0) none (engW 0 255 0) ≠ 0 := by
  unfold Claim.EngineWord Claim.pcOf; decide

/-- A YIELD switch that waits for an instruction of F0. -/
def slowSwitch : State := queued (inSwitch 0 3 (running [])) 0 { ext := none, word := engW 0 0 0, task := 0, pc := 0, idx := [] }
theorem test_wit_switch_timeout : switching slowSwitch 0 = true ∧ (clusterAt slowSwitch 0).switchKind = 0 ∧
    stepOneDone (clusterAt slowSwitch 0) = false := by decide
/-- FLOAD of a tile whose line 0 is the stream's, above the scratchpad's last line. -/
def badLoad : QInstr := { ext := none, word := engW 0 2 (at_ 0x17FFFF 40), task := 0, pc := 0, idx := [0, 0, 0, 0, 0, 0, 0] }
theorem test_wit_inaccessible : Claim.Starts (queued (running []) 0 badLoad) 0 0 2 badLoad ∧
    firstFault (queued (running []) 0 badLoad)
      [{ addr := padAddr 0 (lineAt badLoad 40), len := tileBytes (fmtFld badLoad.word 64) 4, write := false }] = some (padBase + 64 * 0x180000, false) ∧
    mayStartSlot false (queued (running []) 0 badLoad) 0 0 badLoad = true := by
  unfold Claim.Starts; decide

theorem test_wit_yield : Claim.SeqWord (running [seqW 8 0]) 0 8 (seqW 8 0) ∧ Claim.NoNextTask (clusterAt (running [seqW 8 0]) 0) := by
  refine ⟨by unfold Claim.SeqWord Claim.pcOf; decide, ?_⟩
  intro d h1 h2
  have : d = 1 ∨ d = 2 ∨ d = 3 := by omega
  rcases this with rfl | rfl | rfl <;> · unfold Claim.ReadyTask; decide
theorem test_wit_yield_next : Claim.SeqWord (twoTasks (running [seqW 8 0])) 0 8 (seqW 8 0) ∧
    Claim.NextTask (clusterAt (twoTasks (running [seqW 8 0])) 0) 3 := by
  refine ⟨by unfold Claim.SeqWord Claim.pcOf; decide, 3, by decide, by decide, by decide, by unfold Claim.ReadyTask; decide, ?_⟩
  intro d h1 h2
  have : d = 1 ∨ d = 2 := by omega
  rcases this with rfl | rfl <;> · unfold Claim.ReadyTask; decide

/-- FEND with TMODE 1 to the last word of the stream, and HALT. -/
def fendW : IWord := seqW 9 (at_ 15 64 + at_ 1 84)
theorem test_wit_fend : Claim.SeqWord (running [fendW]) 0 9 fendW ∧ (clusterAt (running [fendW]) 0).quiet = true ∧
    mashMoving (clusterAt (running [fendW]) 0) = false ∧ bitFld fendW 84 = true ∧
    seqTarget fendW < streamWords (clusterAt (running [fendW]) 0).cur.entry ∧
    (clusterAt (running [fendW]) 0).cur.back = none ∧ ((clusterAt (running [fendW]) 0).task 0).back = none := by
  unfold Claim.SeqWord Claim.pcOf; decide
/-- Outside ride-through mode nothing is copied; in it the queue has room and every stack can be reached. -/
theorem test_wit_carry_flows : Claim.CarryFlows (running []) 0 ∧ rideThrough (running []) = false ∧
    Claim.CarryFlows (riding (running [])) 0 ∧ rideThrough (riding (running [])) = true := by
  unfold Claim.CarryFlows; decide
theorem test_wit_halt : Claim.SeqWord (running [seqW 10 0]) 0 10 (seqW 10 0) ∧
    (clusterAt (running [seqW 10 0]) 0).quiet = true ∧ mashMoving (clusterAt (running [seqW 10 0]) 0) = false := by
  unfold Claim.SeqWord Claim.pcOf; decide
theorem test_wit_task_switch (kind : Fin 3) : switching (inSwitch kind.val 3 (running [])) 0 = true ∧
    stepOneDone (clusterAt (inSwitch kind.val 3 (running [])) 0) = true ∧
    (clusterAt (inSwitch kind.val 3 (running [])) 0).switchTo = some 3 ∧
    (clusterAt (inSwitch kind.val 3 (running [])) 0).hasTask 3 = true ∧
    (clusterAt (inSwitch kind.val 3 (running [])) 0).inbox = [] ∧
    ((clusterAt (inSwitch kind.val 3 (running [])) 0).task 3).ran = false := by
  revert kind; decide


/-! ### Engine instructions that meet the statements' hypotheses -/

/-- An instruction of task 0, with its extension word. -/
def qi (x w : IWord) : QInstr := { ext := some x, word := w, task := 0, pc := 0, idx := [0, 0, 0, 0, 0, 0, 0] }
/-- A running job whose cluster 0 has instruction w at the head of engine e's queue. -/
def ready (e : Nat) (x w : IWord) : State := queued (running []) e (qi x w)
/-- The same with slot 0 of engine e open. -/
def openSlot (s : State) (e : Nat) : State :=
  modEngine s 0 e (fun r => { r with slots := [(0, { group := 0, pairs := List.replicate 16384 0 })] })
/-- An extension word with lines at its first four operands. -/
def extW : IWord := BitVec.ofNat 128 (2 + at_ 7680 8 + at_ 7681 32 + at_ 7700 56 + at_ 7720 80)

theorem test_wit_fnop (e : FSel) : Claim.Starts (ready (engineCode (.f e)) 0 (engW 0 0 0)) 0 (engineCode (.f e)) 0
    (qi 0 (engW 0 0 0)) := by unfold Claim.Starts; cases e <;> decide
theorem test_wit_gnop (e : GSel) : Claim.Starts (ready (engineCode (.g e)) 0 (engW 0 0 0)) 0 (engineCode (.g e)) 0
    (qi 0 (engW 0 0 0)) := by unfold Claim.Starts; cases e <;> decide
theorem test_wit_vnop (e : VSel) : Claim.Starts (ready (engineCode (.v e)) 0 (engW 0 0 0)) 0 (engineCode (.v e)) 0
    (qi 0 (engW 0 0 0)) := by unfold Claim.Starts; cases e <;> decide
theorem test_wit_unop : Claim.Starts (ready 8 0 (engW 8 0 0)) 0 8 0 (qi 0 (engW 8 0 0)) ∧
    (engineAt (ready 8 0 (engW 8 0 0)) 0 8).flight = [] := by unfold Claim.Starts; decide
theorem test_wit_mnop (e : MSel) : Claim.Starts (ready (engineCode (.m e)) 0 (engW 9 0 0)) 0 (engineCode (.m e)) 0
    (qi 0 (engW 9 0 0)) ∧ moverFree (ready (engineCode (.m e)) 0 (engW 9 0 0)) 0 (engineCode (.m e)) = true := by
  unfold Claim.Starts; cases e <;> decide

/-- A product of E5M2 tiles over K = 128 that opens its group. -/
def mmW (e : Nat) : IWord := engW e 1 (at_ 2048 40 + at_ 4096 64 + at_ 3 88 + at_ 5 96 + at_ 5 100 + at_ 1 112 + at_ 3 114 + at_ 3 116)
theorem test_wit_fmm :
    Claim.Starts (ready 0 extW (mmW 0)) 0 0 1 (qi extW (mmW 0)) ∧
    Claim.Accessible (ready 0 extW (mmW 0)) (Claim.productDescs false 0 (qi extW (mmW 0))) ∧
    startFormatOk false false (Claim.operandA false (ready 0 extW (mmW 0)) 0 (qi extW (mmW 0)))
      (Claim.operandB false (ready 0 extW (mmW 0)) 0 (qi extW (mmW 0))) = true ∧
    Claim.Accessible (ready 0 extW (mmW 0)) (Claim.productRanges false (ready 0 extW (mmW 0)) 0 0 (qi extW (mmW 0))) ∧
    mayStartProduct false (ready 0 extW (mmW 0)) 0 0 (qi extW (mmW 0)) = true ∧
    (Claim.startPairs (ready 0 extW (mmW 0)) 0 0 0 true).length = 16384 := by
  refine ⟨by unfold Claim.Starts; decide, by unfold Claim.Accessible; decide, by decide, by unfold Claim.Accessible; decide,
    by decide, ?_⟩
  simp only [Claim.startPairs, if_true, List.length_replicate]
/-- A GMM with both tiles turned, BF16. -/
def gmmW : IWord := engW 2 1 (at_ 2048 40 + at_ 4096 64 + at_ 3 88 + at_ 1 96 + at_ 1 100 + at_ 3 114 + at_ 3 116 + at_ 3 118)
theorem test_wit_gmm :
    Claim.Starts (openSlot (ready 2 extW gmmW) 2) 0 2 1 (qi extW gmmW) ∧
    Claim.Accessible (openSlot (ready 2 extW gmmW) 2) (Claim.productDescs true 0 (qi extW gmmW)) ∧
    startFormatOk false false (Claim.operandA true (openSlot (ready 2 extW gmmW) 2) 0 (qi extW gmmW))
      (Claim.operandB true (openSlot (ready 2 extW gmmW) 2) 0 (qi extW gmmW)) = true ∧
    Claim.Accessible (openSlot (ready 2 extW gmmW) 2) (Claim.productRanges true (openSlot (ready 2 extW gmmW) 2) 0 2 (qi extW gmmW)) ∧
    mayStartProduct true (openSlot (ready 2 extW gmmW) 2) 0 2 (qi extW gmmW) = true := by
  refine ⟨by unfold Claim.Starts; decide, by unfold Claim.Accessible; decide, by decide, by unfold Claim.Accessible; decide,
    by decide⟩

/-- FLOAD and GLOAD of a pair tile, the clears, GMERGE. -/
def tileW (e op fmt : Nat) : IWord := engW e op (at_ 2048 40 + at_ fmt 64)
theorem test_wit_load : Claim.Starts (ready 0 0 (tileW 0 2 10)) 0 0 2 (qi 0 (tileW 0 2 10)) ∧
    mayStartSlot false (ready 0 0 (tileW 0 2 10)) 0 0 (qi 0 (tileW 0 2 10)) = true ∧
    Claim.Accessible (ready 0 0 (tileW 0 2 10)) [{ addr := padAddr 0 2048, len := tileBytes 10#4 4, write := false }] := by
  refine ⟨by unfold Claim.Starts; decide, by decide, by unfold Claim.Accessible; decide⟩
theorem test_wit_clear : Claim.Starts (ready 5 0 (tileW 5 4 0)) 0 5 4 (qi 0 (tileW 5 4 0)) ∧
    mayStartSlot true (ready 5 0 (tileW 5 4 0)) 0 5 (qi 0 (tileW 5 4 0)) = true := by unfold Claim.Starts; decide
theorem test_wit_gmerge : Claim.Starts (ready 5 0 (tileW 5 5 1)) 0 5 5 (qi 0 (tileW 5 5 1)) ∧
    mayStartSlot true (ready 5 0 (tileW 5 5 1)) 0 5 (qi 0 (tileW 5 5 1)) = true ∧
    Claim.Accessible (ready 5 0 (tileW 5 5 1)) [{ addr := padAddr 0 2048, len := tileBytes 1#4 4, write := false },
      slotRange 0 5 0] := by
  refine ⟨by unfold Claim.Starts; decide, by decide, by unfold Claim.Accessible; decide⟩

/-- UAPPLY with the adaptive rule and its gradient in the slice buffer of G0, or at GR. -/
def uapW (gr : Nat) : IWord :=
  engW 8 1 (at_ 2048 40 + at_ 4096 64 + at_ 7000 88 + at_ 1 112 + at_ (if gr = 1 then 0 else 2) 114 + at_ gr 124)
def uapS : State := modEngine (ready 8 extW (uapW 0)) 0 2 (fun r => { r with slice := some (List.replicate 1 0x7F80) })
theorem test_wit_uapply_slice : (engineAt uapS 0 8).flight = [] ∧ Claim.Starts uapS 0 8 1 (qi extW (uapW 0)) ∧
    (engineAt uapS 0 2).slice.isSome = true ∧ Claim.Accessible uapS (updateRanges 0 (qi extW (uapW 0))) := by
  refine ⟨by decide, by unfold Claim.Starts; decide, by decide, by unfold Claim.Accessible; decide⟩
theorem test_wit_uapply_tile : Claim.Starts (ready 8 extW (uapW 1)) 0 8 1 (qi extW (uapW 1)) ∧ bitFld (uapW 1) 124 = true ∧
    Claim.Accessible (ready 8 extW (uapW 1)) (updateRanges 0 (qi extW (uapW 1))) := by
  refine ⟨by unfold Claim.Starts; decide, by decide, by unfold Claim.Accessible; decide⟩
/-- The slice buffer of the first holds a gradient that is not finite; with 0 in its place every g is finite. -/
theorem test_wit_uapply_not_finite : gradientRows uapS 0 (qi extW (uapW 0)) = [[0x7F800000#32]] ∧
    (val32 0x7F800000#32).isFin = false := by decide
theorem test_wit_uapply_finite : gradientRows (modEngine uapS 0 2 (fun r => { r with slice := some [0] })) 0 (qi extW (uapW 0)) = [[0]] ∧
    (val32 0#32).isFin = true := by decide
def ucastW : IWord := engW 8 2 (at_ 2048 40 + at_ 1 118)
theorem test_wit_ucast : Claim.Starts (ready 8 extW ucastW) 0 8 2 (qi extW ucastW) ∧
    Claim.Accessible (ready 8 extW ucastW) ({ addr := padAddr 0 2048, len := 65536, write := false } ::
      writeRanges (copyWrites 0 (qi extW ucastW) (wordRows (ready 8 extW ucastW) 0#4 (padAddr 0 2048))).1) := by
  refine ⟨by unfold Claim.Starts; decide, by unfold Claim.Accessible; decide⟩

/-- The hypotheses of a drain that writes a tile. -/
def DrainMeets (g : Bool) (s : State) (e : Nat) (q : QInstr) (d : Drain) : Prop :=
  Claim.Starts s 0 e 3 q ∧ mayStartSlot g s 0 e q = true ∧ drainReady s 0 e q d = true ∧ Claim.CarryFlows s 0 ∧ d.dest = false ∧
  mashFault (taskMash s 0 q.task) d.lane d.mash (isDeriv d.func) = none ∧
  Claim.Accessible s (Claim.drainRanges s 0 e q d (Claim.drainOutput s 0 e q d)) ∧ d = drainOf g (clusterAt s 0) q d.lane
/-- A drain of band 0 in FP32. -/
def drainW (e more : Nat) : IWord := engW e 3 (at_ 2048 40 + more)
def drainS (e more : Nat) : State := openSlot (ready e extW (drainW e more)) e
theorem test_wit_drain : DrainMeets false (drainS 0 0) 0 (qi extW (drainW 0 0))
    (drainOf false (clusterAt (drainS 0 0) 0) (qi extW (drainW 0 0)) 0) := by
  refine ⟨by unfold Claim.Starts; decide, by decide, by decide, by unfold Claim.CarryFlows; decide, by decide, by decide, ?_, by decide⟩
  unfold Claim.Accessible; set_option maxRecDepth 100000 in decide

/-- A mash state in BF16 with one entry on each lane, the lower ones of lane 0 spilt. -/
def mash0 : Mash where
  depth0 := 1
  lo0 := 0
  depth1 := 3
  lo1 := 1
  mfmt := 1
  pf := 1
  cs := 4
  ring := 10240
  spill := 0x100000
  se := 4
  pushes := 0
  pops := 0
  spills := 0
  prefetches := 0
  out0 := []
  out1 := [1]
  in0 := []
  in1 := [0]
/-- Cluster 0 with a mash on task 0. -/
def withMash (s : State) : State := withCl s (fun c => { c with tasks := [{ task0 with mash := some mash0 }] })
/-- A drain that pushes, one whose function is a derivative (code 9), and one into the slice buffer. -/
def mashDrain (more : Nat) : State := withMash (drainS 2 more)
theorem test_wit_drain_push : DrainMeets true (mashDrain (at_ 1 84)) 2 (qi extW (drainW 2 (at_ 1 84)))
    (drainOf true (clusterAt (mashDrain (at_ 1 84)) 0) (qi extW (drainW 2 (at_ 1 84))) 0) ∧
    taskMash (mashDrain (at_ 1 84)) 0 0 = some mash0 ∧ (clusterAt (mashDrain (at_ 1 84)) 0).hasTask 0 = true ∧
    Claim.SpillFlows (mashDrain (at_ 1 84)) 0 0 mash0 := by
  refine ⟨⟨by unfold Claim.Starts; decide, by decide, by decide, by unfold Claim.CarryFlows; decide, by decide, by decide, ?_, by decide⟩,
    by decide, by decide, by unfold Claim.SpillFlows; decide⟩
  unfold Claim.Accessible; set_option maxRecDepth 100000 in decide
theorem test_wit_drain_deriv : DrainMeets true (mashDrain (at_ 9 80)) 2 (qi extW (drainW 2 (at_ 9 80)))
    (drainOf true (clusterAt (mashDrain (at_ 9 80)) 0) (qi extW (drainW 2 (at_ 9 80))) 0) ∧
    isDeriv (drainOf true (clusterAt (mashDrain (at_ 9 80)) 0) (qi extW (drainW 2 (at_ 9 80))) 0).func = true ∧
    Claim.SpillFlows (mashDrain (at_ 9 80)) 0 0 mash0 := by
  refine ⟨⟨by unfold Claim.Starts; decide, by decide, by decide, by unfold Claim.CarryFlows; decide, by decide, by decide, ?_, by decide⟩,
    by decide, by unfold Claim.SpillFlows; decide⟩
  unfold Claim.Accessible; set_option maxRecDepth 100000 in decide
theorem test_wit_drain_slice : Claim.Starts (mashDrain (at_ 1 85)) 0 2 3 (qi extW (drainW 2 (at_ 1 85))) ∧
    (drainOf true (clusterAt (mashDrain (at_ 1 85)) 0) (qi extW (drainW 2 (at_ 1 85))) 0).dest = true ∧
    drainReady (mashDrain (at_ 1 85)) 0 2 (qi extW (drainW 2 (at_ 1 85)))
      (drainOf true (clusterAt (mashDrain (at_ 1 85)) 0) (qi extW (drainW 2 (at_ 1 85))) 0) = true ∧
    mayStartSlot true (mashDrain (at_ 1 85)) 0 2 (qi extW (drainW 2 (at_ 1 85))) = true ∧
    Claim.Accessible (mashDrain (at_ 1 85)) [slotRange 0 2 0] := by
  refine ⟨by unfold Claim.Starts; decide, by decide, by decide, by decide, by unfold Claim.Accessible; decide⟩

def pushS : State := withMash (ready 5 extW (tileW 5 6 1))
theorem test_wit_gmpush : Claim.Starts pushS 0 5 6 (qi extW (tileW 5 6 1)) ∧ taskMash pushS 0 0 = some mash0 ∧
    mayStartSlot true pushS 0 5 (qi extW (tileW 5 6 1)) = true ∧ Claim.SpillFlows pushS 0 0 mash0 ∧
    (clusterAt pushS 0).hasTask 0 = true ∧ mashReady (some mash0) 0 true false = true ∧ mash0.depth 0 < mash0.se ∧
    Claim.Accessible pushS ([{ addr := padAddr 0 2048, len := tileBytes 1#4 4, write := false },
      { addr := padAddr 0 7680, len := scaleBytes 1#4 4, write := false }] ++ pushRanges 0 mash0 0) := by
  refine ⟨by unfold Claim.Starts; decide, by decide, by decide, by unfold Claim.SpillFlows; decide, by decide, by decide,
    by decide, by unfold Claim.Accessible; decide⟩
/-- GMPOP of lane 1 with PEEK, in BF16. -/
def popW : IWord := engW 5 7 (at_ 2048 40 + at_ 1 64 + at_ 1 72 + at_ 1 74)
def popS : State := withMash (ready 5 extW popW)
theorem test_wit_gmpop : Claim.Starts popS 0 5 7 (qi extW popW) ∧ taskMash popS 0 0 = some mash0 ∧
    mayStartSlot true popS 0 5 (qi extW popW) = true ∧ Claim.SpillFlows popS 0 1 mash0 ∧
    (clusterAt popS 0).hasTask 0 = true ∧ mashReady (some mash0) 1 false true = true ∧ 0 < mash0.depth 1 ∧
    Claim.Accessible popS (writeRanges (packTile 1#4 (((mashTop popS 0 0 1).map
      (fun r => r.map (fun v => forwardFn 0 (widen v)))).map (fun r => r.map (fun o => wordVal o.1)))
      (padAddr 0 2048) (padAddr 0 7680) 3 3).1 ++ popRanges 0 mash0 1) := by
  refine ⟨by unfold Claim.Starts; decide, by decide, by decide, by unfold Claim.SpillFlows; decide, by decide, by decide,
    by decide, ?_⟩
  unfold Claim.Accessible; set_option maxRecDepth 100000 in decide
/-- A way over the panel, as its source chooses it. -/
def wayOf (s : State) (a b u : Nat) : Transit :=
  match passage s a b u with
  | .through hops _ => Transit.begin_ a b u hops false
  | .held hops => Transit.begin_ a b u hops true
  | .unreachable => Transit.begin_ a b u [] true
/-- A transfer of lane 1 on its way to the home of its entry, in stack 0. -/
def transfer (kind : BulkKind) (d : Nat) : BulkPacket :=
  { kind := kind, k := 0, e := 15, task := 0, ord := d, addr := homeAddr mash0 1 d, lines := 1, data := [], relay := none
    way := wayOf pushS 0 72 0 }
def transferS : State := { pushS with noc := { pushS.noc with bulk := [transfer (.spill 1) 1, transfer (.prefetch 1) 0] } }
theorem test_wit_mash_transfers : transferS.tick.recovery.active = false ∧
    (clusterAt transferS 0).cur.mash = some mash0 ∧
    (clusterAt transferS 0).hasTask (clusterAt transferS 0).resident = true ∧ Claim.SpillFlows transferS 0 1 mash0 ∧
    mash0.lo 1 < mash0.se ∧ mash0.depth 1 ≤ mash0.se ∧ mash0.outs 1 = [1] ∧ mash0.ins 1 = [0] ∧
    transferAt transferS 0 1 (.spill 1) = some (0, transfer (.spill 1) 1) ∧
    transferAt transferS 0 0 (.prefetch 1) = some (1, transfer (.prefetch 1) 0) ∧
    Claim.Crosses transferS 0 (transfer (.spill 1) 1) ∧ Claim.Takes transferS 72 ∧
    Claim.Crosses transferS 1 (transfer (.prefetch 1) 0) ∧
    upsetsIn transferS.mem 0 (memKey transferS (ringAddr 0 mash0 1 1)) (mashBytes mash0) = [] ∧
    passage transferS (homeUnit transferS 0 (homeAddr mash0 1 0)) 0 0 = .through (wayOf transferS 72 0 0).hops true := by
  refine ⟨by decide, by decide, by decide, by unfold Claim.SpillFlows; decide, by decide, by decide, by decide, by decide,
    by decide, by decide, by unfold Claim.Crosses; decide, by unfold Claim.Takes; decide, by unfold Claim.Crosses; decide,
    by decide, by decide⟩
/-- No word of a prefetched entry is upset at its home. -/
theorem test_wit_prefetch_clean (j : Nat) : upsetsIn transferS.mem 0 (memKey transferS (homeAddr mash0 1 0 + 64 * j)) 64 = [] := rfl

/-- GALT that opens slots 1 and 0, with D as a BF16 tile, or as a tile behind a descriptor that names E5M2. -/
def galtW (gd : Nat) : IWord := engW 2 8 (at_ 2048 40 + at_ 4096 64 + at_ (if gd = 1 then 0 else 1) 88 +
  at_ (if gd = 1 then 5 else 1) 92 + at_ 1 96 + at_ 1 105 + at_ 1 108 + at_ 1 109 + at_ gd 111)
def galtX (f : Nat) : IWord := BitVec.ofNat 128 (2 + at_ 6144 8 + at_ f 32 + at_ 7680 36 + at_ 7690 60 + at_ 7700 84)
def galtS (gd f : Nat) : State :=
  let s := ready 2 (galtX f) (galtW gd)
  { s with mem := { s.mem with cells := [(padAddr 0 7680, 3)] } }
/-- The hypotheses of GALT. -/
def GaltMeets (s : State) (q : QInstr) : Prop :=
  let w := q.word
  let gd := bitFld w 111
  let d := operandOf s 0 gd (fmtFld w 88) (lineAt q 40) (extLine q 36) false
  let wt := operandOf s 0 false (fmtFld w 92) (lineAt q 64) (extLine q 60) false
  let xt := operandOf s 0 false (fmtFld q.extw 32) (extLine q 8) (extLine q 84) (bitFld w 110)
  let dTurn : Operand := { fmt := d.fmt, addr := d.addr, sa := d.sa, turn := true }
  Claim.Starts s 0 2 8 q ∧ fld w 96 3 ≠ fld w 102 3 ∧
  Claim.Accessible s (if gd then [{ addr := padAddr 0 (extLine q 36), len := 64, write := false }] else []) ∧
  (startFormatOk gd false d wt && startFormatOk false false xt dTurn) = true ∧
  mayStartProduct true s 0 2 q = true ∧
  Claim.Accessible s (d.ranges 4 3 ++ wt.ranges 4 3 ++ xt.ranges 4 3 ++
    (if bitFld w 108 then [] else [slotRange 0 2 (fld w 96 3)]) ++
    (if bitFld w 109 then [] else [slotRange 0 2 (fld w 102 3)])) ∧ bitFld w 108 = true ∧ bitFld w 109 = true ∧
  (Claim.startPairs s 0 2 (fld w 96 3) true).length = 16384 ∧ (Claim.startPairs s 0 2 (fld w 102 3) true).length = 16384
theorem test_wit_galt : GaltMeets (galtS 0 1) (qi (galtX 1) (galtW 0)) := by
  refine ⟨by unfold Claim.Starts; decide, by decide, by unfold Claim.Accessible; decide, by decide,
    by decide, by unfold Claim.Accessible; decide, by decide, by decide, ?_, ?_⟩ <;>
  simp only [Claim.startPairs, if_true, List.length_replicate]
theorem test_wit_galt_descriptor : GaltMeets (galtS 1 5) (qi (galtX 5) (galtW 1)) := by
  refine ⟨by unfold Claim.Starts; decide, by decide, by unfold Claim.Accessible; decide, by decide,
    by decide, by unfold Claim.Accessible; decide, by decide, by decide, ?_, ?_⟩ <;>
  simp only [Claim.startPairs, if_true, List.length_replicate]

/-- One V-engine operation of each opcode. -/
def vecW (e op : Nat) : IWord := engW e op (at_ 2048 40 + at_ 1 79)
theorem test_wit_vector (e : VSel) (op : Fin 12) : Claim.Starts (ready (engineCode (.v e)) extW (vecW 6 op.val)) 0
    (engineCode (.v e)) op.val (qi extW (vecW 6 op.val)) := by
  unfold Claim.Starts; cases e <;> · revert op; decide
/-- The ranges of VLD and VST in FP32, of VLD behind a descriptor, of VLDL and VSTL. -/
def vldW (desc : Nat) : IWord := engW 6 1 (at_ 2048 40 + at_ desc 75)
theorem test_wit_vld : Claim.Starts (ready 6 extW (vldW 0)) 0 6 1 (qi extW (vldW 0)) ∧ vDesc (qi extW (vldW 0)) = false ∧
    Claim.Accessible (ready 6 extW (vldW 0)) (regionRanges 0#4 (padAddr 0 2048) (padAddr 0 7680) false 0 false) := by
  refine ⟨by unfold Claim.Starts; decide, by decide, by unfold Claim.Accessible; decide⟩
def vldD : State := { ready 6 extW (vldW 1) with mem := { State.reset.mem with cells := [(padAddr 0 7680, 7)] } }
theorem test_wit_vld_descriptor : Claim.Starts vldD 0 6 1 (qi extW (vldW 1)) ∧
    Claim.Accessible vldD [{ addr := padAddr 0 7680, len := 64, write := false }] ∧
    descLegal (operandOf vldD 0 true 0#4 2048 7680 false).fmt = true ∧
    Claim.Accessible vldD (regionRanges 7#4 (padAddr 0 2048) (padAddr 0 7681) false 0 false) := by
  refine ⟨by unfold Claim.Starts; decide, by unfold Claim.Accessible; decide, by decide, by unfold Claim.Accessible; decide⟩
def vstW : IWord := engW 6 2 (at_ 2048 40)
theorem test_wit_vst : Claim.Starts (ready 6 extW vstW) 0 6 2 (qi extW vstW) ∧
    Claim.Accessible (ready 6 extW vstW) (writeRanges (regionWrites 0#4 (padAddr 0 2048) (padAddr 0 7680) false 0
      (tileRows (tileReg (ready 6 extW vstW) 0 6 0))).1) := by
  refine ⟨by unfold Claim.Starts; decide, ?_⟩
  unfold Claim.Accessible; set_option maxRecDepth 100000 in decide
theorem test_wit_vector_lines :
    Claim.Accessible (ready 6 extW (vecW 6 10)) [{ addr := padAddr 0 2048, len := 64, write := false }] ∧
    Claim.Accessible (ready 6 extW (vecW 6 11)) [{ addr := padAddr 0 2048, len := 64, write := true }] := by
  refine ⟨by unfold Claim.Accessible; decide, by unfold Claim.Accessible; decide⟩

/-! ### Movers, signals and packets -/

/-- A copy of one line from the cluster's own scratchpad. -/
def copyW (op mode : Nat) (src : Nat) : IWord := engW 9 op (at_ src 40 + at_ mode 112)
def copyX (dst : Nat) : IWord := BitVec.ofNat 128 (2 + at_ dst 8)
/-- The hypotheses of the near clause of MCOPY and MADD. -/
def MoveNear (s : State) (q : QInstr) (merge : Bool) (src dst : Nat) : Prop :=
  Claim.Starts s 0 9 (if merge then 2 else 1) q ∧ moverFree s 0 9 = true ∧ (clusterAt s 0).wtQueue.length < 1024 ∧
  dst < 2 ^ 48 ∧ Claim.CarryFlows s 0 ∧ upsetsIn s.mem 0 (memKey s dst) 64 = [] ∧
  passage s (clusterHome s 0) (homeUnit s (clusterHome s 0) dst) (homeLocal dst) ≠ .unreachable ∧ fld q.extw 64 16 = 0 ∧ fld q.word 88 24 = 0 ∧
  fld q.extw 56 8 = 0 ∧ addrOk s src = true ∧ destOk s (copyHaul merge 0 9 q) dst = true ∧ nearLine 0 src = true ∧
  upsetsIn s.mem 0 (memKey s src) 64 = [] ∧ panelTree s dst = none ∧ fabricTree s 0 0 dst = none ∧
  src = fld q.word 40 48 + 64 * (idxReg q.idx (fld q.word 114 3)).toNat ∧
  dst = fld q.extw 8 48 + 64 * (idxReg q.idx (fld q.word 117 3)).toNat
theorem test_wit_mcopy_own : MoveNear (ready 9 (copyX (padAddr 0 4096)) (copyW 1 0 (padAddr 0 2048)))
    (qi (copyX (padAddr 0 4096)) (copyW 1 0 (padAddr 0 2048))) false (padAddr 0 2048) (padAddr 0 4096) ∧
    padCluster (padAddr 0 4096) = 0 := by unfold MoveNear Claim.Starts Claim.CarryFlows; decide
theorem test_wit_madd_other : MoveNear (ready 9 (copyX (padAddr 7 4096)) (copyW 2 0 (padAddr 1 2048)))
    (qi (copyX (padAddr 7 4096)) (copyW 2 0 (padAddr 1 2048))) true (padAddr 1 2048) (padAddr 7 4096) ∧
    padCluster (padAddr 7 4096) ≠ 0 := by unfold MoveNear Claim.Starts Claim.CarryFlows; decide
theorem test_wit_mcopy_far : Claim.Starts (ready 9 (copyX (padAddr 0 4096)) (copyW 1 2 0)) 0 9 1
    (qi (copyX (padAddr 0 4096)) (copyW 1 2 0)) ∧ addrOk (running []) 0 = true ∧ nearLine 0 0 = false ∧
    destOk (ready 9 (copyX (padAddr 0 4096)) (copyW 1 2 0)) (copyHaul false 0 9 (qi (copyX (padAddr 0 4096)) (copyW 1 2 0)))
      (padAddr 0 4096) = true ∧ fld (copyW 1 2 0) 112 2 ≠ 0 ∧
    passage (running []) (clusterHome (running []) 0) (homeUnit (running []) 0 0) (homeLocal 0) ≠ .unreachable := by unfold Claim.Starts; decide

/-- MSIG: destination cluster, object, task, operation, amount, circuit. -/
def sigW (dcl obj op amount circ : Nat) : IWord :=
  engW 9 3 (at_ dcl 40 + at_ obj 49 + at_ op 57 + at_ amount 59 + at_ circ 75)
/-- A job whose clusters 0 and 1 both have a task. -/
def both (s : State) : State := modCluster s 1 (fun _ => cl0)
def sigS (w : IWord) : State := both (ready 9 0 w)
theorem test_wit_msig_own (op : Fin 3) : Claim.Starts (sigS (sigW 0 47 op.val 0xFFFF 0)) 0 9 3 (qi 0 (sigW 0 47 op.val 0xFFFF 0)) ∧
    mRelay (qi 0 (sigW 0 47 op.val 0xFFFF 0)) = false ∧ mOp (qi 0 (sigW 0 47 op.val 0xFFFF 0)) = op.val ∧
    moverFree (sigS (sigW 0 47 op.val 0xFFFF 0)) 0 9 = true ∧ signalTarget (sigS (sigW 0 47 op.val 0xFFFF 0)) 0 0 = true ∧
    Claim.LiveTarget (sigS (sigW 0 47 op.val 0xFFFF 0))
      (mSignal (sigS (sigW 0 47 op.val 0xFFFF 0)) 0 9 (qi 0 (sigW 0 47 op.val 0xFFFF 0)) none) := by
  unfold Claim.Starts Claim.LiveTarget; revert op; decide
theorem test_wit_msig_other : Claim.Starts (sigS (sigW 1 0 0 1 0)) 0 9 3 (qi 0 (sigW 1 0 0 1 0)) ∧
    mRelay (qi 0 (sigW 1 0 0 1 0)) = false ∧ signalTarget (sigS (sigW 1 0 0 1 0)) 1 0 = true ∧ mDcl (qi 0 (sigW 1 0 0 1 0)) = 1 ∧
    wFence (sigW 1 0 0 1 0) = false ∧
    passage (sigS (sigW 1 0 0 1 0)) 0 ((siteBy (sigS (sigW 1 0 0 1 0)) 0 (1 / 8)).getD 0) (1 % 8) ≠ .unreachable := by unfold Claim.Starts; decide
theorem test_wit_msig_circuit : Claim.Starts (sigS (sigW 1 0 0 1 255)) 0 9 3 (qi 0 (sigW 1 0 0 1 255)) ∧
    mRelay (qi 0 (sigW 1 0 0 1 255)) = false ∧ mCirc (qi 0 (sigW 1 0 0 1 255)) ≠ 0 := by unfold Claim.Starts; decide

/-- A signal from cluster 0 to object 47 of cluster 1. -/
def sig0 (relay : Option Nat) : Signal := { srcK := 0, srcE := 9, dstK := 1, task := 0, obj := 47, op := 2, amount := 0, circ := 0, unf := false, relay := relay, remote := false }
/-- The signal on its way from site 0 to a unit: to its cluster of the same site, or to the rim die that its packet leaves by. -/
def sigPacket (relay : Option Nat) (leaves : Option (SentPacket × FabPacket)) (b : Nat) : SyncPacket :=
  { sig := sig0 relay, leaves := leaves, came := none, way := wayOf (running []) 0 b 1 }
def sigFlight (p : SyncPacket) : State :=
  let s := both (running [])
  { s with noc := { s.noc with sync := [p], relays := [{ id := 5, left := 0 }] } }
theorem test_wit_signal_arrival : let p := sigPacket none none 0
    Claim.CrossesSync (sigFlight p) 0 p ∧ firstSignal (sigFlight p).noc.sync 0 p = true ∧ p.sig.op < 3 ∧
    Claim.Takes (sigFlight p) p.way.dest ∧ Claim.LiveTarget (sigFlight p) p.sig := by
  unfold Claim.CrossesSync Claim.Takes Claim.LiveTarget; decide
theorem test_wit_relay_apply : let p := sigPacket (some 5) none 0
    Claim.CrossesSync (sigFlight p) 0 p ∧ firstSignal (sigFlight p).noc.sync 0 p = true ∧ p.sig.op < 3 ∧
    (sigFlight p).noc.relays.any (fun r => r.id == 5 && r.left == 0) = true ∧
    Claim.Takes (sigFlight p) p.way.dest ∧ Claim.LiveTarget (sigFlight p) p.sig := by
  unfold Claim.CrossesSync Claim.Takes Claim.LiveTarget; decide
/-- Behind an equal signal the second one waits. -/
theorem test_wit_signal_behind : let p := sigPacket none none 0
    firstSignal [p, p] 1 p = false := by decide
/-- A relay of one line to cluster 1. -/
def relayW : IWord := sigW 1 3 0 1 0 ||| BitVec.ofNat 128 (at_ 1 83)
def relayX : IWord := BitVec.ofNat 128 (2 + at_ 2048 8 + at_ 4096 32)
def relayS : State := both (ready 9 relayX relayW)
theorem test_wit_msig_relay : Claim.Starts relayS 0 9 3 (qi relayX relayW) ∧ mRelay (qi relayX relayW) = true ∧
    mMerge (qi relayX relayW) = false ∧ moverFree relayS 0 9 = true ∧ mCirc (qi relayX relayW) = 0 ∧
    signalTarget relayS 1 0 = true ∧ mDcl (qi relayX relayW) = 1 ∧ padCluster (padAddr 1 4096) = 1 ∧
    fld relayX 56 12 = 0 ∧ addrOk relayS (padAddr 0 2048) = true ∧ addrOk relayS (padAddr 1 4096) = true ∧
    inStream relayS (padAddr 1 4096) 64 = false ∧ nearLine 0 (padAddr 0 2048) = true ∧
    upsetsIn relayS.mem 0 (memKey relayS (padAddr 0 2048)) 64 = [] ∧ (clusterAt relayS 0).wtQueue.length < 1024 ∧
    passage relayS (clusterHome relayS 0) ((siteBy relayS (clusterHome relayS 0) (1 / 8)).getD 0) (1 % 8) ≠ .unreachable := by unfold Claim.Starts; decide

/-- An instruction in flight of F0 that signals 1 unit to object 0, or no object; a fence behind an acknowledged write. -/
def flying (obj n : Nat) : State := modEngine (running []) 0 0 (fun r => { r with
  flight := [{ instr := qi 0 (BitVec.ofNat 128 (at_ 63 14 + at_ obj 24 + at_ n 30 + at_ 1 34)), upTo := 3, reads := 0, before := none }], unacked := [(4, 0)] })
theorem test_wit_completion : jobRunning (flying 0 1) = true ∧ (engineAt (flying 0 1) 0 0).flight.length = 1 ∧
    (∀ f ∈ (engineAt (flying 0 1) 0 0).flight, f.reads = 0 ∧ wSigObj f.instr.word = 0 ∧ wFence f.instr.word = true ∧
      (∀ w ∈ (engineAt (flying 0 1) 0 0).unacked, f.upTo < w.1) ∧ f.instr.task = (clusterAt (flying 0 1) 0).resident) ∧
    (clusterAt (flying 0 1) 0).diag.state ≠ 1 := by decide
theorem test_wit_completion_no_object : jobRunning (flying 63 0) = true ∧
    (∀ f ∈ (engineAt (flying 63 0) 0 0).flight, f.reads = 0 ∧ wSigObj f.instr.word = noObj) := by decide

/-- One packet on the bulk network, written by the mover M0 of cluster 0: from unit a to unit b. -/
def packet (kind : BulkKind) (addr a b : Nat) : BulkPacket :=
  { kind := kind, k := 0, e := 9, task := 0, ord := 1, addr := addr, lines := 1, data := List.replicate 64 7, relay := none
    way := wayOf (running []) a b 0 }
def carrying (p : BulkPacket) : State :=
  let s := both (running [])
  { s with noc := { s.noc with bulk := [p] } }
/-- What every clause of the bulk statements asks: the packet crosses, it is taken, and there is a way back. -/
def Arrives (s : State) (p : BulkPacket) : Prop :=
  Claim.Crosses s 0 p ∧ Claim.Takes s p.way.dest ∧ p.relay = none ∧ p.e < 16 ∧
  passage s p.way.dest (writerUnit s p.k) (if p.k < 512 then p.k % 8 else 0) ≠ .unreachable
theorem test_wit_bulk_write_pad : let p := packet .write (padAddr 1 4096) 0 0
    Arrives (carrying p) p ∧ placeOf (padAddr 1 4096) = .pad 1 262144 ∧ Claim.CarryFlows (carrying p) 1 ∧
    throughRoom (carrying p) p.addr p.lines = true := by
  unfold Arrives Claim.Crosses Claim.Takes Claim.CarryFlows; decide
theorem test_wit_bulk_write_stack : let p := packet .write 64 0 72
    Arrives (carrying p) p ∧ placeOf 64 = .stack 0 64 ∧ rideThrough (carrying p) = false ∧
    throughRoom (carrying p) p.addr p.lines = true := by unfold Arrives Claim.Crosses Claim.Takes; decide
/-- A ride-through job with a carry region in stack 0. -/
def carryPlan : JobPlan := { plan0 with carry := [{ base := 0, length := 4096, stack := true, mash := false }] }
def mirroring (p : BulkPacket) : State :=
  let s := riding (carrying p)
  { s with job := { s.job with plan := some carryPlan, copiesDone := true } }
theorem test_wit_bulk_write_mirrored : let p := packet .write 64 0 72
    Arrives (mirroring p) p ∧ placeOf 64 = .stack 0 64 ∧ rideThrough (mirroring p) = true ∧
    (regionOf (mirroring p) 64).isSome = true ∧ partnerOf (mirroring p) 0 = some 4 ∧
    passage (mirroring p) 72 76 0 ≠ .unreachable := by unfold Arrives Claim.Crosses Claim.Takes; decide
theorem test_wit_mirror : let p := packet (.mirror 72) 64 72 76
    Arrives (mirroring p) p ∧ passage (mirroring p) 76 72 0 ≠ .unreachable := by
  unfold Arrives Claim.Crosses Claim.Takes; decide
theorem test_wit_mirror_ack : let p := packet (.mirrorAck 72) 64 76 72
    Arrives (mirroring p) p := by unfold Arrives Claim.Crosses Claim.Takes; decide
theorem test_wit_merge_stack : let p := packet .merge 64 0 72
    Arrives (carrying p) p ∧ p.data.length = 64 ∧ upsetsIn (carrying p).mem 0 (memKey (carrying p) 64) 64 = [] ∧
    placeOf 64 = .stack 0 64 := by unfold Arrives Claim.Crosses Claim.Takes; decide
theorem test_wit_merge_pad : let p := packet .merge (padAddr 1 4096) 0 0
    Arrives (carrying p) p ∧ upsetsIn (carrying p).mem 0 (memKey (carrying p) (padAddr 1 4096)) 64 = [] ∧
    placeOf (padAddr 1 4096) = .pad 1 262144 ∧ Claim.CarryFlows (carrying p) 1 := by
  unfold Arrives Claim.Crosses Claim.Takes Claim.CarryFlows; decide
/-- The last copy of a carry line of cluster 0, behind one line of its queue and in front of another. -/
def throughS (p : BulkPacket) : State :=
  withCl (carrying p) (fun c => { c with wtQueue :=
    [{ line := 7, left := [1, 2] }, { line := padAddr 0 4096 / 64, left := [2] }, { line := 9, left := [1] }] })
theorem test_wit_write_through : let p := packet (.writeThrough 2) (padAddr 0 4096) 0 76
    let q : List WtLine := [{ line := 7, left := [1, 2] }]
    let r : List WtLine := [{ line := 9, left := [1] }]
    Claim.Crosses (throughS p) 0 p ∧ Claim.Takes (throughS p) 76 ∧
    (∀ x ∈ (throughS p).noc.bulk, x.kind = .writeThrough 2 → x.addr = p.addr → x.k = p.k → p.ord ≤ x.ord) ∧
    (clusterAt (throughS p) p.k).wtQueue = q ++ { line := p.addr / 64, left := [2] } :: r ∧
    (∀ x ∈ q, x.line ≠ p.addr / 64) ∧ (∀ x ∈ q ++ r, x.left ≠ []) ∧
    (∀ x ∈ r, x ≠ { line := p.addr / 64, left := [2] }) := by
  unfold Claim.Crosses Claim.Takes; decide
theorem test_wit_read_request : let p := packet (.readReq 1 4096 0 false) 64 0 72
    Arrives (carrying p) p ∧ (∀ j, j < p.lines → upsetsIn (carrying p).mem 0 (memKey (carrying p) (p.addr + 64 * j)) 64 = []) ∧
    passage (carrying p) 72 (clusterHome (carrying p) 0) 0 ≠ .unreachable := by
  refine ⟨by unfold Arrives Claim.Crosses Claim.Takes; decide, fun _ _ => rfl, by decide⟩
theorem test_wit_read_data : let p := packet (.readData 2 4096 0 false) 64 72 0
    Arrives (carrying p) p ∧ p.data.length = 64 ∧ ¬ (padCluster 4096 = p.k ∧ padBase ≤ 4096) ∧
    passage (carrying p) 0 (homeUnit (carrying p) 0 4096) (homeLocal 4096) ≠ .unreachable := by
  unfold Arrives Claim.Crosses Claim.Takes; decide
theorem test_wit_ack : let p := packet (.ack false true) 64 72 0
    Arrives (carrying p) p ∧ p.k < 512 := by unfold Arrives Claim.Crosses Claim.Takes; decide
/-- The last acknowledgement of inbound packet 3, at the rim die that took it in. -/
def inboundAck : BulkPacket := { packet (.ack false false) 64 0 72 with k := 1027, e := 0 }
def inboundS : State :=
  let s := carrying inboundAck
  { s with fab := { s.fab with inbound := [{ id := 3, port := 0, header := 0, left := 1, err := false }] } }
theorem test_wit_inbound_ack : Claim.Crosses inboundS 0 inboundAck ∧ Claim.Takes inboundS 72 ∧ inboundAck.k = 1024 + 3 ∧
    inboundS.fab.inbound.find? (fun y => y.id == 3) = some { id := 3, port := 0, header := 0, left := 1, err := false } ∧
    hRly (0 : BitVec 128) = false := by unfold Claim.Crosses Claim.Takes; decide
/-- A combining tree of two contributors on chiplet 0. -/
def tree0 : Tree where
  dcl := 0
  first := 1
  lines := 1
  number := 15
  contrib := [(0, 0, 0), (1, 0, 0)]
  nodes := [{ host := 0, rim := 0, left := 0x40, right := 0x41, circ := 0 }]
def treeS (p : BulkPacket) : State :=
  let s := carrying p
  { s with job := { s.job with plan := some { plan0 with trees := [tree0] } } }
theorem test_wit_tree : let p := packet (.tree 15 0x40 []) 64 0 0
    Claim.Crosses (treeS p) 0 p ∧ treeByCode (treeS p) 15 = some tree0 ∧
    parentOf tree0 0x40 = some (0, tree0.nodes.headD (TreeNode.mk 0 0 0 0 0), true) ∧
    (treeS p).noc.nodes.find? (fun x => x.fabric == decide (16 ≤ 15) && x.tree == 15 && x.node == 0 && x.line == 64 && x.child != 0x40) = none ∧
    nodeRoom (treeS p) false 15 0 0x40 0 = true := by unfold Claim.Crosses; decide

/-! ### The fabric -/

/-- A ring of modules 1 (this one, on rim die 2) and 2, and circuit 255 on it. -/
def ring0 : Ring := { number := 3, members := [(1, 2), (2, 5)] }
def circ0 : Circuit := { number := 255, modA := 1, modB := 2, weight := 1, legs := [{ ring := 3, inn := 0, out := 1 }] }
/-- Module 1, every port up. -/
def linked (s : State) : State := { s with
  fab := { s.fab with moduleId := 1, ports := (List.range 32).map (fun p => (p, { portDefault with state := .up, active := 0xFF })) } }
/-- The test job with the circuit. -/
def onFabric (s : State) : State := linked { s with
  job := { s.job with plan := some { plan0 with rings := [ring0], circuits := [circ0] } } }
/-- A bulk request from this module to module 2, in order. -/
def pkt0 : FabPacket := { header := BitVec.ofNat 128 (16 + at_ 255 24 + at_ 1 32 + at_ 2 44), payload := List.replicate 64 0 }
def sp0 : SentPacket := { seq := 7, circ := 255, cls := 0, k := 0, e := 9, dmod := 2, addr := 0, lines := 1, acks := [], merge := false }
def ordS (earlier : List SentPacket) : State :=
  let s := onFabric (running [])
  { s with fab := { s.fab with ordWait := [(sp0, pkt0)], sent := earlier } }
theorem test_wit_rate : circuitAt (onFabric (running [])) (255#8).toNat = some circ0 ∧
    (onFabric (running [])).fab.echoSeen.contains 255 = false := by decide
theorem test_wit_ord_blocked : jobRunning (ordS [{ sp0 with seq := 6 }]) = true ∧
    (ordS [{ sp0 with seq := 6 }]).fab.ordWait[0]? = some (sp0, pkt0) ∧
    ordBlocked { ordS [{ sp0 with seq := 6 }] with fab := { (ordS [{ sp0 with seq := 6 }]).fab with ordWait := [] } } sp0 (hOrd pkt0.header) = true := by
  decide
theorem test_wit_ord_free : ordBlocked { ordS [] with fab := { (ordS []).fab with ordWait := [] } } sp0 (hOrd pkt0.header) = false ∧
    sp0.cls < 3 ∧ (ordS []).fab.egress = [] ∧ circuitAt (ordS []) sp0.circ = some circ0 ∧
    ((routeSource (ordS []) pkt0 circ0).map
      (fun r => (r.2.2, decide (r.1 < 32), portReady (ordS []) (portAt (ordS []) r.1) 0 r.2.1))) = some (false, true, true) := by decide
/-- The last part of a fabric packet on its way from site 0 to the port's rim die 2, and a signal's packet. -/
def toRim : BulkPacket := packet (.fabric sp0 pkt0) 0 0 74
theorem test_wit_bulk_fabric : Claim.Crosses (carrying toRim) 0 toRim ∧ Claim.Takes (carrying toRim) 74 ∧
    (∀ x ∈ dropAt (carrying toRim).noc.bulk 0, x.kind ≠ .fabric sp0 pkt0) := by unfold Claim.Crosses Claim.Takes; decide
theorem test_wit_signal_leaves : let p := sigPacket none (some (sp0, pkt0)) 74
    Claim.CrossesSync (sigFlight p) 0 p ∧ firstSignal (sigFlight p).noc.sync 0 p = true ∧ Claim.Takes (sigFlight p) 74 := by
  unfold Claim.CrossesSync Claim.Takes; decide

/-! ### The tick -/

/-- The tick on, no job. -/
def ticking (src : Nat) : State := { State.reset with
  tick := { State.reset.tick with on := true, cfg := { State.reset.tick.cfg with source := BitVec.ofNat 8 src }, expected := some 1000000 } }
theorem test_wit_edge_internal : Claim.BetweenTicks (ticking 0) ∧ (ticking 0).job.state = .none ∧ (ticking 0).tick.cfg.source = 0#8 := by
  unfold Claim.BetweenTicks; decide
/-- The window ends 4 µs from the expected time, inclusive; times in ns. -/
theorem test_wit_edge_pulse : Claim.BetweenTicks (ticking 1) ∧ (ticking 1).tick.cfg.source = 1#8 ∧
    edgeInWindow (ticking 1) 1004000 = true ∧ edgeInWindow (ticking 1) 996000 = true ∧
    edgeInWindow (ticking 1) 1004001 = false ∧ edgeInWindow (ticking 1) 995999 = false := by
  unfold Claim.BetweenTicks; decide
theorem test_wit_edge_flywheel : (ticking 2).tick.cfg.source ≠ 0#8 ∧ (ticking 2).tick.expected = some 1000000 ∧
    (ticking 2).tick.flywheels ≠ 3 := by decide
def beaconS : State :=
  let s := ticking 2
  { s with tick := { s.tick with cfg := { s.tick.cfg with beaconIn := 31 } }
           fab := { s.fab with ports := [(31, { portDefault with state := .closed, delay := 3 })] } }
theorem test_wit_edge_beacon : Claim.BetweenTicks beaconS ∧ beaconS.job.state = .none ∧ beaconS.tick.cfg.source = 2#8 ∧
    beaconS.tick.cfg.beaconIn.toNat = 31 ∧ (portAt beaconS 31).state = .closed ∧ (8#4).toNat ≤ 8 ∧
    edgeInWindow beaconS (1000010 - (portAt beaconS 31).delay.toNat - (7#16).toNat) = true := by
  unfold Claim.BetweenTicks; decide
/-- A running frame whose cluster 0 has an instruction in flight. -/
def busyFrame (src fly : Nat) : State :=
  let s := flying 0 1
  { s with tick := { s.tick with cfg := { s.tick.cfg with source := BitVec.ofNat 8 src }, expected := some 1000000, flywheels := fly } }
theorem test_wit_census : Claim.BetweenTicks (busyFrame 1 3) ∧ (busyFrame 1 3).job.state = .running ∧
    undrainedUnits (busyFrame 1 3) = [0] ∧ edgeInWindow (busyFrame 1 3) 1000000 = true ∧
    (busyFrame 1 3).tick.expected = some 1000000 ∧ (busyFrame 1 3).tick.flywheels = 3 := by
  unfold Claim.BetweenTicks; decide
theorem test_wit_census_internal : Claim.BetweenTicks (busyFrame 0 0) ∧ (busyFrame 0 0).tick.cfg.source = 0#8 ∧
    undrainedUnits (busyFrame 0 0) ≠ [] := by unfold Claim.BetweenTicks; decide
def lossDue (s : State) : State := { s with tick := { s.tick with lossDue := true } }
theorem test_wit_source_lost : (lossDue (running [])).tick.on = true ∧ (lossDue (running [])).tick.lossDue = true ∧
    (lossDue (running [])).tick.phase = .idle ∧ (lossDue (running [])).job.state = .running ∧
    (lossDue (ticking 1)).job.state = .none ∧ (lossDue (ticking 1)).tick.phase = .idle := by decide

/-- A running frame whose tasks have all ended it. -/
def doneS : State := withCl (running []) (fun c => { c with tasks := [{ task0 with frameDone := true }], seq := .allDone })
/-- The same with group 7 open on slot 7 of G3. -/
def openS : State := modEngine doneS 0 5 (fun r => { r with slots := [(7, { group := 7, pairs := [] })] })
/-- A frame in its census; with members, where the domain has others. -/
def inCensus (s : State) (members : List Nat) : State := { s with
  tick := { s.tick with phase := .census, issueOn := false, cfg := { s.tick.cfg with voteWait := if members.isEmpty then 0 else 1 } }
  job := { s.job with plan := some { plan0 with members := members } } }
theorem test_wit_census_holds : (inCensus (flying 0 1) []).tick.phase = .census ∧ (inCensus (flying 0 1) []).job.state = .running ∧
    (inCensus (flying 0 1) []).crown.withheld = [] ∧ (inCensus (flying 0 1) []).tick.votes = [] ∧
    otherMembers (inCensus (flying 0 1) []) = [] ∧ undrainedUnits (inCensus (flying 0 1) []) ≠ [] := by decide
theorem test_wit_census_open_group :
    undrainedUnits (inCensus openS []) = [] ∧ allOpenGroups (inCensus openS []) ≠ [] := by decide
theorem test_wit_census_commits : undrainedUnits (inCensus doneS []) = [] ∧ allOpenGroups (inCensus doneS []) = [] ∧
    allHalted (inCensus doneS []) = false ∧ (inCensus doneS []).job.endAtCommit = false ∧
    (inCensus doneS []).tick.lossDue = false ∧ (inCensus doneS []).fab.held = [] := by decide
/-- A management route to module 2 by port 3. -/
def routed (s : State) : State := { s with fab := { s.fab with routes := [{ dmod := 2, port := 3, alt := 0, altv := false, dlset := true }] } }
theorem test_wit_census_domain : let s := routed (linked (inCensus doneS [1, 2]))
    otherMembers s = [2] ∧ undrainedUnits s = [] ∧ allOpenGroups s = [] ∧ s.fab.egress = [] ∧ mgmtRoute s 2 = some (3, true) ∧
    portReady s (portAt s 3) 0 (putDl (votePacket s 2 s.tick.seq .commit) true) = true ∧
    mgmtRoute (linked (inCensus doneS [1, 2])) 2 = none := by decide
/-- A domain of modules 1 (this one), 2 and 4095, in the middle of a frame or waiting for the votes. -/
def inDomain (ph : TickPhase) (votes : List (BitVec 12 × Vote)) : State :=
  let s := linked (inCensus doneS [1, 2, 4095])
  { s with tick := { s.tick with phase := ph, votes := votes } }
/-- The vote of module 4095, of the frame of a sequence number, for a module. -/
def voteFrom (dmod seq : Nat) (v : Vote) : FabPacket :=
  votePacket { State.reset with fab := { State.reset.fab with moduleId := 4095 } } dmod (BitVec.ofNat 64 seq) v
theorem test_wit_vote_packet : hType (voteFrom 1 5 .hold).header = 7 ∧ hDmod (voteFrom 1 5 .hold).header = 1 ∧
    hSmod (voteFrom 1 5 .hold).header = 4095 ∧ fieldAt (voteFrom 1 5 .hold).payload 0 8 = 5 ∧
    voteOf (voteFrom 1 5 .hold) = some .hold ∧ voteOf { voteFrom 1 5 .hold with payload := leBytes 16 (at_ 3 64) } = none ∧
    arrive (inDomain .idle []) 7 (voteFrom 1 5 .hold) = some (inDomain .idle []) ∧ myModule (inDomain .idle []) = 1 ∧
    hDmod (voteFrom 2 5 .hold).header ≠ 1 := by decide
theorem test_wit_vote_kept : voteCounts (inDomain .idle []) 4095 0 = true ∧ voteCounts (inDomain .census []) 2 0 = true ∧
    voteCounts (inDomain .idle []) 3 0 = false ∧ voteCounts (inDomain .idle []) 2 1 = false ∧
    voteCounts (inDomain .census [(2, .commit)]) 2 0 = false := by decide
theorem test_wit_vote_last : (inDomain (.voting .commit) [(2, .hold)]).tick.phase = .voting .commit ∧
    voteCounts (inDomain (.voting .commit) [(2, .hold)]) 4095 0 = true ∧
    (∀ n ∈ otherMembers (inDomain (.voting .commit) [(2, .hold)]), n = 4095 ∨ n = 2) ∧
    (∀ x ∈ (inDomain (.voting .commit) [(2, .hold)]).tick.votes, x.2 ≠ .abandon) := by decide
theorem test_wit_vote_wait : 4095 ∈ otherMembers (inDomain (.voting .commit) [(2, .commit)]) ∧
    ∀ x ∈ (inDomain (.voting .commit) [(2, .commit)]).tick.votes, x.1.toNat ≠ 4095 ∧ x.2 ≠ .abandon := by decide

def overrunS : State :=
  let s := running []
  { s with tick := { s.tick with overrun := true } }
def starting : State :=
  let s := running []
  { s with job := { s.job with state := .starting } }
def ending (l : Nat) : State :=
  let s := running []
  { s with job := { s.job with state := .ending }, mem := { s.mem with darkIn := [l], dark := [(64 * l, 5)] } }
theorem test_wit_overrun : overrunS.tick.overrun = true ∧ overrunS.job.state = .running := by decide
theorem test_wit_write_out : (ending 3).job.state = .ending ∧ (ending 3).mem.darkIn.contains (255 / 64) = true ∧
    (ending 3).mem.darkIn.contains (256 / 64) = false := by decide
theorem test_wit_copies : starting.job.state = .starting ∧ starting.job.copiesDone = false ∧
    ({ code := 8, rim := 15, line := 0 } : CopyFault).code = 8#8 := by decide

/-! ### The dictionary, jobs and resets -/

/-- A started-up module: both maltsters at their images, every ready bit, the crown north and confirmed. -/
def upS : State := { State.reset with
  su := { State.reset.su with ready := 0xFFFFFFFF, step := 8, northBoot := .ready, southBoot := .ready, stacksReady := 0xFFFF }
  crown := { State.reset.crown with holder := some .north, epochNorth := 1, epochSouth := 1, peerAck := true } }
/-- The same with the test job running. -/
def upRun : State :=
  let s := running []
  { upS with job := s.job, tick := s.tick, topo := s.topo, clusters := s.clusters, mem := s.mem }
/-- Two parties. -/
def pa : Party := .can .north 1
def pb : Party := .fabric .south 4095 255
def owned (s : State) (p : Party) : State := { s with dict := { s.dict with owner := some p } }

/-- Fields of 2800h written to its staging copy. -/
def staged2800 (s : State) (fs : Tbl (List Byte)) : State := setStaging s .r2800 { Staging.clean with fields := fs }
theorem test_wit_tick_access : ∀ b ∈ [2, 3, 4, 5, 6, 7, 8],
    ((findObject upS pa 0x2800 b).toOption.map (fun o => o.acc == .rws)) = some true := by decide
theorem test_wit_tick_commit : Claim.Admitted (staged2800 upS [(2, [25, 0])]) pa 0x2800 1 1 ∧
    (stagingOf (staged2800 upS [(2, [25, 0])]) .r2800).pending = false ∧ crownConfirmed (staged2800 upS [(2, [25, 0])]) = true ∧
    jobHeld (staged2800 upS [(2, [25, 0])]) = false ∧ (∀ f ∈ [(2, 25), (3, 0), (4, 0xFF), (5, 0), (6, 0), (7, 1), (8, 0)],
      stagedNat (staged2800 upS [(2, [25, 0])]) .r2800 f.1 = f.2) := by unfold Claim.Admitted; decide
theorem test_wit_tick_range : stagedNat (staged2800 upS [(2, [24, 0])]) .r2800 2 = 24 ∧
    stagedNat (staged2800 upS [(2, [0xD1, 7])]) .r2800 2 = 2001 ∧ stagedNat (staged2800 upS [(2, [0x91, 1]), (6, [1])]) .r2800 2 = 401 ∧
    stagedNat (staged2800 upS [(2, [0x91, 1]), (6, [1])]) .r2800 6 = 1 ∧ Claim.Admitted (staged2800 upRun []) pa 0x2800 1 1 ∧
    jobHeld (staged2800 upRun []) = true := by unfold Claim.Admitted; decide

theorem test_wit_owner_none : Claim.Admitted upS pb 0x2802 1 1 ∧ upS.dict.owner = none := by unfold Claim.Admitted; decide
theorem test_wit_owner_some : Claim.Admitted (owned upRun pa) pb 0x2802 1 1 ∧ Claim.Admitted (owned upRun pa) pa 0x2802 1 1 ∧
    (owned upRun pa).dict.owner = some pa ∧ pa ≠ pb ∧ jobHeld (owned upRun pa) = true ∧ (owned upRun pa).job.state = .running ∧
    (owned upS pa).job.state = .none ∧ Claim.Admitted (owned upS pa) pa 0x2802 1 1 := by unfold Claim.Admitted; decide

/-- One section entry of a job descriptor. -/
def sect (typ cl count off len : Nat) : List Byte := leBytes 16 (typ + at_ cl 16 + at_ count 32 + at_ off 64 + at_ len 96)
/-- A job of one cluster with one stream in a carry region, a stack region of 256 MB; with a serving plan where asked. -/
def jobDesc (serving : Bool) : List Byte :=
  leBytes 8 (0x4A44 + at_ 1 16 + at_ (if serving then 4 else 3) 32) ++ leBytes 4 (if serving then 368 else 240) ++
  List.replicate 52 0 ++ sect 1 0x1FF 1 128 64 ++ sect 2 0x1FF 2 192 32 ++ sect 3 0 1 224 16 ++
  (if serving then sect 0x0A 0x1FF 1 240 128 else List.replicate 16 0) ++
  leBytes 64 1 ++ leBytes 16 (padBase + at_ 1 64) ++ leBytes 16 (at_ 0x10000 64 + at_ 1 96) ++
  leBytes 16 (at_ 4 24 + at_ 0x1000 88) ++
  (if serving then leBytes 128 (at_ 1 48 + at_ 0x1000 64 + at_ 1 112 + at_ 0x10000 128 + at_ 2 184 + at_ 0x20000 208 +
    at_ 0x21000 256 + at_ 1 304 + at_ 0x1000000 320 + at_ 1 368 + at_ 0x4000000 416 + at_ 1 468) else [])
def withDesc : State := { upS with job := { upS.job with descriptor := jobDesc false, svcDesc := jobDesc true } }
/-- The state in which the descriptor's conditions are judged. -/
def judged : State := assignNumbers (spareStacks { withDesc with job := { withDesc.job with refusal := 0 } })
set_option maxRecDepth 100000 in
set_option exponentiation.threshold 600 in
theorem test_wit_job_start : Claim.Admitted withDesc pa 0x2803 1 1 ∧ stateReason withDesc false = none ∧
    layoutBad (jobDesc false) false = none ∧ descriptorBad judged (jobDesc false) judged.topo.chiplets = none := by
  unfold Claim.Admitted; decide
set_option maxRecDepth 100000 in
set_option exponentiation.threshold 600 in
theorem test_wit_service_start : Claim.Admitted withDesc pa 0x3802 1 1 ∧ stateReason withDesc true = none ∧
    layoutBad (jobDesc true) true = none ∧ descriptorBad judged (jobDesc true) judged.topo.chiplets = none := by
  unfold Claim.Admitted; decide
theorem test_wit_job_control : Claim.Admitted upRun pa 0x2803 1 1 ∧ stateReason upRun false = some 0x20 ∧ jobHeld upRun = true ∧
    upRun.job.state = .running ∧ jobHeld upS = false ∧ Claim.Admitted upS pa 0x2803 1 1 := by unfold Claim.Admitted; decide
theorem test_wit_service_control : Claim.Admitted upRun pa 0x3802 1 1 ∧ Claim.Admitted upS pa 0x3802 1 1 := by
  unfold Claim.Admitted; decide

theorem test_wit_window_write : Claim.Admitted upS pa 0x2804 2 3 ∧ windowRefusal upS upS.dict.window.toNat 3 = none ∧
    upS.dict.window.toNat + 3 ≤ 0x040000000000 ∧ windowRefusal upRun 0 3 = some 0x08000022 ∧ Claim.Admitted upRun pa 0x2804 2 3 := by
  unfold Claim.Admitted; decide
theorem test_wit_window_read : isAnswered upS pa = true ∧ (readBarred upS pa 0x2804 2).toOption.isSome = true ∧
    windowRefusal upS 0 (2 ^ 30) = none ∧ windowRefusal upS 0 (2 ^ 30 + 1) = some 0x06070010 ∧ upsetsIn upS.mem 0 0 64 = [] := by decide
theorem test_wit_flags_clear : Claim.Admitted upRun pa 0x4000 3 2 ∧ Claim.Admitted upRun pa 0x41FF 3 2 ∧
    clusterHeld upRun 0 = true ∧ clusterHeld upRun 511 = false := by unfold Claim.Admitted; decide
theorem test_wit_diag : Claim.Admitted upRun pa 0x4000 0x0D 8 ∧ jobHeld upRun = true ∧ diagTaken upRun 0 = false ∧
    clusterHeld upRun 0 = true ∧ upRun.tick.on = true ∧ bitsAt ((0x0B#64 &&& 0x0000FFFFFFFFF3FF).toNat) 1 4 = 5 := by
  unfold Claim.Admitted; decide
theorem test_wit_diag_taken : diagTaken (modCluster upRun 1 (fun c => { c with diag := { diagEmpty with state := 1 } })) 0 = true ∧
    Claim.Admitted upS pa 0x4000 0x0D 8 := by unfold Claim.Admitted; decide

/-- A page of cluster 511: object 47, and an access that is not aligned. -/
theorem test_wit_control_page : placeOf 0x0C0001FF1178 = .clusterPage 511 (0x1000 + 8 * 47) ∧ 0x0C0001FF1178 % 8 = 0 ∧
    clusterHeld upRun 0 = true ∧ placeOf 0x0C0000001000 = .clusterPage 0 (0x1000 + 8 * 0) ∧
    0x0C0000001004 % 8 ≠ 0 ∧ (2 : Nat) ≠ 4 := by decide

theorem test_wit_seam_reset : Claim.Admitted upRun pa 0x3047 0x31 1 ∧ (siteAt upRun 71).seamReq ≠ 2 ∧
    Claim.Admitted upS pa 0x3047 0x31 1 ∧ jobHeld upS = false := by unfold Claim.Admitted; decide
def seamS : State :=
  let s := modSite upS 0 (fun r => { r with seamReq := 2 })
  { s with noc := { s.noc with links := (List.range 16).map (fun key => (key, { linkDefault with state := .down })) } }
set_option maxRecDepth 100000 in
theorem test_wit_seam_done : (siteAt seamS 0).seamReq = 2 ∧ (∀ e ∈ seamS.dl.entries, defKind e ≠ 1 ∧ defKind e ≠ 2) ∧
    (∀ key ∈ siteLinks 0, (linkAt seamS key).failed = [] ∧ (linkAt seamS key).state ≠ .retired ∧ linkDark seamS key = false) := by
  refine ⟨by decide, fun e he => ?_, by decide⟩
  have h : seamS.dl.entries.all (fun e => decide (defKind e ≠ 1 ∧ defKind e ≠ 2)) = true := by decide
  exact of_decide_eq_true (List.all_eq_true.mp h e he)
theorem test_wit_compute_reset : Claim.Admitted upS pa 0x4247 5 1 ∧ jobHeld upS = false ∧ (siteAt upS 71).state = .running ∧
    startingUp upS = false := by unfold Claim.Admitted; decide
theorem test_wit_compute_refused : (siteAt upS 67).state = .slateIdle ∧ (siteAt upRun 0).logical.isSome = true ∧
    Claim.Admitted upRun pa 0x4200 5 1 := by unfold Claim.Admitted; decide
theorem test_wit_compute_done : (siteAt (modSite upS 4 (fun r => { r with state := .computeReset })) 4).state = .computeReset := by
  decide

/-! ### Accesses, staged records, power and the crown -/

/-- A module of which no maltster answers yet is State.reset. -/
theorem test_wit_access_off : isAnswered State.reset pa = false := by decide
theorem test_wit_access_order : isAnswered upS pa = true ∧
    (findObject upS pa 0x1FFF 0).toOption.isNone = true ∧ (findObject upS pa 0x1017 9).toOption.isNone = true ∧
    ((findObject upS pa 0x2010 1).toOption.map (fun o => o.acc == .ro)) = some true ∧
    ((findObject upS pa 0x1017 0).toOption.map (fun o => (o.acc == .rw, o.size))) = some (true, some 2) ∧
    ((findObject (owned upS pb) pa 0x2803 1).toOption.map (fun o => o.acc == .rw || o.acc == .wo)) = some true ∧
    ownerOnly 0x2803 1 = true ∧ mayWrite (owned upS pb) pa = false := by decide
/-- Another party's upload of a descriptor in progress. -/
def uploading : State := { upS with dict := { upS.dict with
  transfers := [{ party := pb, index := 0x2803, sub := 2, write := true, data := [1], pos := 1 }] } }
theorem test_wit_access_busy : isAnswered uploading pa = true ∧ domainBusy uploading pa 0x2803 2 = true ∧
    ((findObject uploading pa 0x2803 2).toOption.map (fun o => (o.acc == .rw || o.acc == .wo, o.size))) = some (true, none) ∧
    mayWrite uploading pa = true := by decide
theorem test_wit_object_write : Claim.Admitted upS pa 0x1017 0 2 ∧ recAt 0x1017 = none := by unfold Claim.Admitted; decide
theorem test_wit_segments : isAnswered uploading pb = true ∧ (findTransfer uploading pb 0x2803 2 true).isSome = true ∧
    1 + 4096 ≤ domainMax 0x2803 2 ∧ findTransfer upS pa 0x1017 0 false = none ∧
    ((readBarred upS pa 0x1017 0).toOption.map Obj.val) = some [100, 0] ∧ bootOf upS .north ≠ .romOnly := by decide

theorem test_wit_staged_field : Claim.Admitted upS pa 0x2410 2 2 ∧ (stagingOf upS .r2410).pending = false ∧
    Claim.Admitted (setStaging upS .r2410 { Staging.clean with pending := true }) pa 0x2410 2 2 := by
  unfold Claim.Admitted; decide
theorem test_wit_staged_commit : Claim.Admitted upS pa 0x2800 1 1 ∧ commitRefusal upS .r2800 false = none ∧
    crossRecord .r2800 = false ∧ Claim.Admitted upS pa 0x2410 1 1 ∧ commitRefusal upS .r2410 false = none ∧
    crossRecord .r2410 = true ∧ commitRefusal (staged2800 upS [(2, [24, 0])]) .r2800 false = some 0x06090030 ∧
    (stagingOf (staged2800 upS [(2, [24, 0])]) .r2800).pending = false := by unfold Claim.Admitted; decide
/-- The module at a later time, with its tick on or off. -/
def later (on : Bool) : State := { upS with tick := { upS.tick with on := on }, svc := { upS.svc with now := max upS.svc.now 5 } }
theorem test_wit_staged_tick (on : Bool) : Claim.Admitted (later on) pa 0x3080 1 1 ∧
    commitRefusal (later on) .r3080 (later on).tick.on = none ∧ crossRecord .r3080 = false := by
  unfold Claim.Admitted; cases on <;> decide

theorem test_wit_power_state : Claim.Admitted upS pa 0x2411 1 1 ∧ Claim.Admitted upRun pa 0x2411 1 1 ∧ jobHeld upS = false ∧
    upS.power.state ≠ .tripped ∧ crownConfirmed upS = true ∧ jobHeld upRun = true := by unfold Claim.Admitted; decide
/-- A power state on its way to the other maltster; an older epoch is not accepted. -/
def crossing (epoch : Nat) : State := { upS with dict := { upS.dict with
  cross := [{ cmd := .power 3, epoch := BitVec.ofNat 32 epoch, party := pa, req := none }] } }
theorem test_wit_power_cross : crossAccepted (crossing 1) = true ∧ crossAccepted (crossing 0) = false ∧
    (crossing 1).dict.ordered = [] ∧ jobHeld (crossing 1) = false ∧ (crossing 1).power.state = .run := by decide
theorem test_wit_power_change : ({ upS with power := { upS.power with target := some .quiet } } : State).power.target = some .quiet ∧
    upS.su.step = 8 ∧ upS.power.state ≠ .tripped := by decide

/-- A claim of South: its epoch is one above. -/
def claiming : State := { upS with crown := { upS.crown with claimSouth := some 2, renewal := some 2, holder := some .north, peerAck := false } }
def renewing : State := { upS with crown := { upS.crown with renewal := some 1 } }
theorem test_wit_crown_renewal : crownSender upS = some .north ∧ crownSender State.reset = none ∧
    crownSender renewing = some .north ∧ renewing.crown.renewal = some 1 ∧ bootOf renewing .south = .ready ∧
    (epochOf renewing .south).toNat ≤ (1#32).toNat ∧ claimOf renewing .north = none := by decide
theorem test_wit_crown_claim : crownSender claiming = some .south ∧ claiming.crown.renewal = some 2 ∧
    bootOf claiming .north = .ready ∧ (epochOf claiming .north).toNat ≤ (2#32).toNat ∧ claimOf claiming .south = some 2 := by decide
theorem test_wit_crown_take : bootOf upS .south = .ready ∧ upS.crown.holder = some (Half.other .south) ∧ claimOf upS .south = none ∧
    upS.crown.holder.isSome = true := by decide
theorem test_wit_crown_witness : Claim.Admitted claiming pb 0x2030 5 4 ∧ claimOf claiming (partyHalf pb) = some 2 ∧
    claimOf claiming (partyHalf pb) ≠ some 1 ∧ epochOf claiming (partyHalf pb) = 1 ∧ claiming.crown.holder.isSome = true ∧
    epochOf claiming (partyHalf pb) ≠ 3 := by unfold Claim.Admitted; decide

theorem test_wit_field_network : bootOf upS .north = .ready ∧
    nmtOf { upS with can := { upS.can with nmtSouth := .operational, emcyNorth := [1] } } .south ≠ .initialising := by decide
theorem test_wit_droop : upS.tick.phase = .idle ∧ (inCensus upRun []).tick.phase ≠ .idle ∧ upRun.job.state = .running ∧
    clusterSite upRun 0 = some 0 := by decide
/-- A control step in which one site reports: the keys of its limits differ. -/
def step0 : ControlInputs := {
  clusters := [{ k := 0, cycles := [(.product 4 16384, 32)], spin := 0, bubbles := 0, stalls := [], misses := [], issue := 0, wtWaits := 0, mashWaits := 0 }]
  sites := [{ s := 0, traffic := 9, junction := 0, vcore := 750, iCore := 0, iSram := 0, iSeam := 0 }], rims := []
  inputPower := 7, voltNorth := 48, voltSouth := 48, ampNorth := 0, ampSouth := 0, inlet := 0, outlet := 0 }
theorem test_wit_control_step : let u := takeBudget (takeReadings (takeMeters upS step0) step0)
    ((moduleLimits u ++ step0.sites.flatMap (siteLimits u)).map Limit.key).Nodup := by decide
theorem test_wit_calibration : upS.power.frozen = false ∧ railAbsent upS { unit := .site 0, rail := 0, m := 10000, e := 20000, absent := false } = false ∧
    railAbsent upS { unit := .site 4, rail := 0, m := 10000, e := 20000, absent := false } = true ∧
    ({ unit := .site 0, rail := 0, m := 10000, e := 20000, absent := false } : RailWindow).e ≠ 0 := by decide
theorem test_wit_energy : jobHeld upS = false ∧ jobHeld upRun = true ∧
    1000 * upRun.power.jobEnergy.toNat + upRun.power.jobFrac + (3 + 4) < 1000 * 2 ^ 64 ∧
    6 * 0 < 5 * upS.fuse.variant.minFlow ∧ 450 < (451 : Int) := by decide
theorem test_wit_budget : Claim.Admitted upS pa 0x2430 1 4 ∧ upS.power.limitMode.getLsbD 1 = true ∧ upS.power.timeout ≠ 0 ∧
    ({ upS.power with timeout := 0 } : Power).timeout = 0 := by unfold Claim.Admitted; decide

/-! ### Start-up, images, management -/

/-- Entries of a set: maltster, rim, service, and the cluster image of revision 0, one byte each. -/
def ent (t rev : Nat) (digest : List Byte) : ImageEntry :=
  { type := BitVec.ofNat 8 t, rev := BitVec.ofNat 8 rev, length := 1, firstSeq := 0, digest := digest }
/-- A verified set whose one chunk is the byte 7. -/
def set0 : ImageSet := { manifest := [1], setver := 5, svn := 0, advance := false, images := [ent 1 255 [], ent 2 255 [], ent 3 255 [], ent 4 0 (shake256 [7] 64)], compat := [0, 0x01000000, 0x02000000], chunks := [shake256 [7] 32], payloads := [[0], [0], [0], [7]] }
/-- Both halves' flash with the set in bank A, or in both banks. -/
def inFlash (s : State) (b : Bank) : State := { s with img := { s.img with northA := .valid set0, southA := .valid set0, northB := b, southB := b } }
theorem test_wit_power_good : bootOf (inFlash State.reset .empty) .north = .off ∧ bootOf (inFlash State.reset .empty) .south = .off ∧
    bootCheck (inFlash State.reset .empty) .north (bootBankOf (inFlash State.reset .empty) .north) = .passes set0 ∧
    setAdmits (inFlash State.reset .empty) set0 (dieOf (inFlash State.reset .empty) 88) = true ∧
    bootCheck State.reset .south (bootBankOf State.reset .south) = .fails 1 ∧
    bootCheck State.reset .south (1 - bootBankOf State.reset .south) = .fails 1 ∧ bootOf upS .north ≠ .off := by
  refine ⟨by decide, by decide, rfl, by decide, by decide, by decide, by decide⟩
/-- Start-up at a step, with the set in both halves. -/
def atStep (n : Nat) : State :=
  let s := inFlash State.reset .empty
  { s with su := { s.su with step := n, northBoot := .ready, southBoot := .ready } }
theorem test_wit_agreement : (atStep 2).su.step = 2 ∧ (atStep 2).su.northBoot = .ready ∧ (atStep 2).su.southBoot = .ready ∧
    (atStep 2).power.state ≠ .tripped ∧ bootedSet (atStep 2) .north = some set0 ∧ bootedSet (atStep 2) .south = some set0 ∧
    (atStep 3).su.step = 3 ∧ (atStep 2).crown.holder = none ∧ (atStep 2).crown.claimSouth = none := by
  refine ⟨by decide, by decide, by decide, by decide, rfl, rfl, by decide, by decide, by decide⟩
/-- Every site but 71 has reported. -/
def tested71 : State :=
  let s := atStep 4
  { s with su := { s.su with tested := List.range 71 } }
theorem test_wit_self_test : (testedSites (atStep 4)).contains 71 = true ∧ (atStep 4).su.tested.contains 71 = false ∧
    0 ∈ testedSites (atStep 4) ∧ (atStep 4).su.tested.contains 0 = false ∧ (testedSites tested71).contains 71 = true ∧
    tested71.su.tested.contains 71 = false ∧ (testedSites tested71).all (fun m => m == 71 || tested71.su.tested.contains m) = true := by
  decide

theorem test_wit_challenge : Claim.Admitted upS pa 0x3C10 1 32 ∧ (attestOf upS .north).state ≠ 1 ∧ isReady upS bitDlist = true ∧
    isReady { upS with su := { upS.su with ready := 0 } } bitDlist = false ∧
    (attestOf { upS with attNorth := { upS.attNorth with state := 1 } } .north).state = 1 := by unfold Claim.Admitted; decide
theorem test_wit_upload_fails : Claim.Admitted upS pa 0x3C01 1 1 ∧ verifySet upS.fuse.rootHash (minSvnOf upS .north) [0] = .fails 1 := by
  unfold Claim.Admitted; decide
theorem test_wit_clear_refused : Claim.Admitted upS pa 0x2C11 1 64 ∧ clearGood upS (List.replicate 64 0) = false ∧
    startingUp upS = false ∧ jobHeld upS = false ∧ Claim.Admitted upRun pa 0x2C11 1 64 := by unfold Claim.Admitted; decide
/-- A route table of one entry to module 4094, or to this module. -/
def routes (dmod : Nat) : List Byte := leBytes 4 0x014D52 ++ leBytes 12 1 ++ leBytes 8 dmod
theorem test_wit_routes : Claim.Admitted upS pa 0x3081 4 24 ∧ (routes 4094).length = 24 ∧ routesGood (routes 4094) = true ∧
    routesAllowed upS (routesOf (routes 4094)) = true ∧ routesGood (routes 4095) = false ∧ Claim.Admitted upRun pa 0x3081 4 24 := by
  unfold Claim.Admitted; decide
theorem test_wit_activation : Claim.Admitted upS pa 0x3C02 1 1 ∧ spareSet upS = none ∧
    Claim.Admitted (inFlash upS (.valid set0)) pa 0x3C02 1 1 ∧ startingUp upS = false ∧
    spareSet (inFlash upS (.valid set0)) = some set0 := by
  refine ⟨by unfold Claim.Admitted; decide, by decide, by unfold Claim.Admitted; decide, by decide, rfl⟩
theorem test_wit_receivers : 0 ∈ receivingClusters upS := by
  unfold receivingClusters receivingSites; set_option maxRecDepth 100000 in decide

/-- A management request for the heartbeat time, with an operation. -/
def mreq (op n : Nat) : MgmtRequest := { time := 0, half := .north, smod := 9, req := 1, txn := BitVec.ofNat 15 n, op := BitVec.ofNat 3 op, index := 0x1017, sub := 0, ord := true, last := true, offset := 0, count := 8128, data := [0, 1] }
/-- A module with ID 1, with some answered and some waiting requests. -/
def mgmtS (kept : List KeptReply) (waiting : Nat) : State := { upS with
  fab := { upS.fab with moduleId := 1, ports := [(31, { portDefault with state := .up })], routes := [{ dmod := 9, port := 31, alt := 0, altv := false, dlset := true }] }
  dict := { upS.dict with kept := kept, ordered := (List.range waiting).map (fun i => mreq 0 (i + 1)) } }
def kept0 : KeptReply := { smod := 9, req := 1, txn := 0, time := 0, pkt := pkt0 }
theorem test_wit_mgmt_kept : bootOf (mgmtS [kept0] 0) .north ≠ .off ∧ (mgmtS [kept0] 0).fab.moduleId ≠ 0 ∧
    ((mgmtS [kept0] 0).dict.kept.filter (fun y => (mreq 0 0).time ≤ y.time + 4000000000)).find?
      (fun y => y.smod == (mreq 0 0).smod && y.req == (mreq 0 0).req && y.txn == (mreq 0 0).txn) = some kept0 := by decide
theorem test_wit_mgmt_outstanding : outstanding (mgmtS [] 16) (mreq 0 0) = 16 ∧ outstanding (mgmtS [] 15) (mreq 0 0) = 15 ∧
    (mreq 0 0).ord = true ∧ outstanding (mgmtS [] 0) (mreq 0 0) = 0 := by decide
theorem test_wit_mgmt_served : (mreq 0 0).count.toNat ≤ 8128 ∧
    ((readBarred (mgmtS [] 0) (requester (mreq 0 0)) 0x1017 0).toOption.map Obj.val) = some [100, 0] ∧
    ((findObject (mgmtS [] 0) (requester (mreq 1 0)) 0x1017 0).toOption.map (fun o => o.size)) = some (some 2) ∧
    2 < (mreq 7 0).op.toNat := by decide
/-- A management packet for a module. -/
def mpkt (dmod : Nat) : FabPacket := { header := BitVec.ofNat 128 (5 + at_ dmod 44), payload := [] }
theorem test_wit_forward : arrive (mgmtS [] 0) 31 (mpkt 9) = some (mgmtS [] 0) ∧ (mgmtS [] 0).fab.egress = [] ∧
    portReady (mgmtS [] 0) (portAt (mgmtS [] 0) 31) 0 (putDl (mpkt 9) true) = true ∧ hType (mpkt 9).header = 5 ∧ hDmod (mpkt 9).header = 9 ∧
    mgmtRoute (mgmtS [] 0) 9 = some (31, true) ∧ mgmtRoute (mgmtS [] 0) 8 = none ∧ hDmod (mpkt 1).header = myModule (mgmtS [] 0) ∧
    bootOf (mgmtS [] 0) (portHalf 31) ≠ .off := by decide

/-- A response to an outstanding request of this module, and a vote. -/
def mresp : FabPacket := { header := BitVec.ofNat 128 (6 + at_ 9 32 + at_ 1 44), payload := [] }
def asked : State :=
  let s := mgmtS [] 0
  { s with fab := { s.fab with sent := [{ sp0 with cls := 3, dmod := 9 }] } }
theorem test_wit_response : arrive asked 31 mresp = some asked ∧ hType mresp.header = 6 ∧ hDmod mresp.header = myModule asked ∧
    asked.fab.sent.find? (fun y => y.cls == 3 && y.dmod == hSmod mresp.header) = some { sp0 with cls := 3, dmod := 9 } ∧
    hType (voteFrom 1 0 .commit).header = 7 ∧ hDmod (voteFrom 1 0 .commit).header = myModule asked := by decide

/-- A port that trains. -/
def portS (st : PortState) (active : Nat) : State := { upS with fab := { upS.fab with
  ports := [(31, { portDefault with state := st, active := BitVec.ofNat 8 active, buffer := [{ seq := 1, first := 0, words := [], job := false }] })]
  ethPorts := if st = .ethDown then 0x80000000 else 0 } }
theorem test_wit_port_beside : let s := { portS .down 0 with fab := { (portS .down 0).fab with ethPorts := 0x40000000 } }
    (portAt s 31).state = .down ∧ besideEthernet s 31 = true ∧ 4 ≤ s.su.step := by decide
theorem test_wit_port_trained : 4 ≤ (portS .down 0).su.step ∧ besideEthernet (portS .down 0) 31 = false ∧ (portAt (portS .down 0) 31).state = .down ∧
    (portS .down 0).fab.laneFloor.toNat ≤ ((List.range 8).filter (fun l => (~~~((portAt (portS .down 0) 31).failed ||| ~~~(0x0F#8))).getLsbD l)).length ∧
    ((List.range 8).filter (fun l => (~~~((portAt (portS .down 0) 31).failed ||| ~~~(0x07#8))).getLsbD l)).length < (portS .down 0).fab.laneFloor.toNat ∧
    (portAt (portS .ethDown 0) 31).state = .ethDown ∧ (portS .ethDown 0).fab.ethPorts.getLsbD 31 = true := by decide
theorem test_wit_port_lane : (portAt (portS .up 0x1F) 31).state = .up ∧ (portAt (portS .up 0x1F) 31).active.getLsbD 4 = true ∧
    0 < ((List.range 8).filter (fun l => ((portAt (portS .up 0x1F) 31).active &&& ~~~(16#8)).getLsbD l)).length ∧
    (portAt (portS .up 0x1F) 31).active.getLsbD 7 = false ∧ (portS .closed 1).fab.egress = [] ∧
    (portAt (portS .closed 1) 31).state = .closed ∧ (portS .closed 1).job.state = .none := by decide

/-- Cluster 0 receiving the image of the set. -/
def receiving (passes : Nat) : State := { upS with
  img := { upS.img with running := some set0, active := true, session := 3, receivers := [(0, { receiverEmpty with passes := passes })] } }
theorem test_wit_receiver : (receiving 3).img.running = some set0 ∧
    tfind (receiving 3).img.receivers 0 = some { receiverEmpty with passes := 3 } ∧
    clusterImage set0 (tget 0 (receiving 3).fuse.siteRev 0) = some (3, ent 4 0 (shake256 [7] 64)) ∧ (receiving 3).img.active = true ∧
    (receiving 3).power.state ≠ .tripped ∧ activating (receiving 3) = false := by
  refine ⟨rfl, rfl, rfl, by decide, by decide, by decide⟩
/-- The image's one chunk, whole. -/
def chunk7 : Chunk := { image := 3, seq := 0, session := 3, data := [7] }
theorem test_wit_chunk : chunk7.session = (receiving 3).img.session ∧ chunk7.image.toNat = 3 ∧
    (ent 4 0 []).firstSeq ≤ chunk7.seq.toNat ∧ chunk7.seq.toNat < (ent 4 0 []).firstSeq + ceilDiv (ent 4 0 []).length chunkBytes ∧
    receiverEmpty.bitmap.length + 1 = ceilDiv (ent 4 0 []).length chunkBytes ∧
    ({ chunk7 with session := 4 } : Chunk).session ≠ (receiving 3).img.session := by decide
theorem test_wit_chunk_digest : shake256 chunk7.data 32 = set0.chunks.getD chunk7.seq.toNat [] := by
  simp [set0, chunk7]
theorem test_wit_chunk_bad_digest : shake256 chunk7.data 32 ≠ ({ set0 with chunks := [[]] } : ImageSet).chunks.getD chunk7.seq.toNat [] := by
  decide +kernel
theorem test_wit_chunk_whole : shake256 (((List.range 1).flatMap
    (fun i => tget [] (tset receiverEmpty.chunks 0 chunk7.data) (0 + i))).take 1) 64 = (ent 4 0 (shake256 [7] 64)).digest := by
  have h : ((List.range 1).flatMap (fun i => tget [] (tset receiverEmpty.chunks 0 chunk7.data) (0 + i))).take 1 = [7] := by decide
  rw [h]
  simp only [ent]

/-! ### Faults, links, packets -/

/-- A running job in ride-through mode, its carry region one page of cluster 0's scratchpad and 4 KiB of stack 0. -/
def rideS : State :=
  let s := running []
  { s with
    tick := { s.tick with cfg := { s.tick.cfg with ride := 1 } }
    job := { s.job with plan := some { plan0 with carry := [{ base := padBase, length := 4096, stack := false, mash := false }, { base := 0, length := 4096, stack := true, mash := false }] } } }
theorem test_wit_array_check : (siteAt upS 71).state = .running ∧ upS.job.state = .none ∧ upRun.job.state = .running ∧
    rideThrough upRun = false ∧ rideThrough rideS = true ∧ rideS.tick.recovery.active = false ∧ (siteAt rideS 0).rowCounts = [] ∧
    (siteAt rideS 0).colCounts = [] ∧ (siteAt (modSite upS 3 (fun r => { r with state := .dark })) 3).state = .dark := by decide
/-- The same once the copies of its start are done. -/
def copiedS : State := { rideS with job := { rideS.job with copiesDone := true } }
theorem test_wit_data_error_copies : copiedS.job.copiesDone = true ∧ copiedS.mem.wf = true ∧ rideS.job.copiesDone = false ∧
    copiedS.tick.recovery.active = false ∧ (regionOf copiedS 4095).isSome = true ∧ placeOf 4095 = .stack 0 4095 := by decide
theorem test_wit_data_error : upS.job.state ≠ .running ∧ upRun.tick.recovery.active = false ∧ clusterHeld upRun 7 = true ∧
    placeOf (padBase + 7 * padWindow) = .pad 7 0 ∧ placeOf 4095 = .stack 0 4095 ∧ (regionOf rideS 4095).isSome = true ∧
    (regionOf rideS 4096).isSome = false := by decide
theorem test_wit_carry_write : rideThrough rideS = true ∧ jobHeld rideS = true ∧ (regionOf rideS padBase).isSome = true ∧
    rideS.mem.written = [] ∧ rideThrough upRun = false ∧ (regionOf rideS (padBase + 4096)).isSome = false ∧
    rideS.mem.darkIn = [] ∧ (regionOf rideS 4096).isNone = true ∧ memKey rideS 4096 < padBase := by decide
theorem test_wit_domain_failure : upS.dl.entries.length < 8192 ∧ (siteAt upS 67).state = .slateIdle ∧ (siteAt upS 67).logical = none ∧
    (siteAt rideS 0).state = .running ∧ (siteAt rideS 0).logical = some 0 ∧ rideS.job.state = .running ∧
    chooseSlate rideS 0 = some 4 ∧ stackRetired upRun 15 = false := by decide
/-- A takeover of site 0 by the slate at site 4, released. Of the carry line at its second line the primary copy lists a byte
of the pale bank, of the third the dark one is committed; `bad` says which copies of the second line hold a bad word. -/
def reloadS (bad : List Nat) : State := { rideS with
  tick := { rideS.tick with recovery := { rideS.tick.recovery with active := true, takeovers := [{ chiplet := 0, failed := 0, slate := 4, released := true }] } }
  topo := setRemap { rideS.topo with sites := [(4, { siteDefault rideS.topo 4 with state := .running, logical := some 0 })] }
    [(0, { site := 4, valid := true, subst := true })]
  mem := { rideS.mem with
    cells := [(copyKey 1 (padBase + 64), 1)], dark := [(copyKey 1 (padBase + 128), 2)]
    darkIn := [copyKey 1 (padBase + 128) / 64], upset := bad.map (fun c => (c * 2 ^ 45 + (padBase + 64) / 8, 3)) } }
theorem test_wit_reload : (reloadS []).mem.wf = true ∧ chipletSite (reloadS []) 0 = some 4 ∧
    (reloadS []).tick.recovery.takeovers.find? (fun y => y.slate == 4 && y.released) =
      some { chiplet := 0, failed := 0, slate := 4, released := true } ∧
    backedLines (reloadS []) 0 = [(padBase + 64) / 64, (padBase + 128) / 64] ∧
    (∀ line ∈ backedLines (reloadS [1]) 0, goodCopy (reloadS [1]) [1, 2] line ≠ none) ∧
    goodCopy (reloadS [1]) [1, 2] ((padBase + 64) / 64) = some 2 ∧ goodCopy (reloadS []) [1, 2] ((padBase + 64) / 64) = some 1 ∧
    goodCopy (reloadS [1, 2]) [1, 2] ((padBase + 64) / 64) = none ∧ (reloadS [1, 2]).job.state = .running := by decide

/-- A module with no defect, and with one flipped bit in line 5 of stack 0. -/
def cleanS : State := { upS with dl := { upS.dl with entries := [] }, mem := { upS.mem with upset := [(40, 1)] } }
theorem test_wit_haze : cleanS.dl.entries = [] ∧ (linkAt cleanS (dirKey (.site 0 1 3))).state = .full ∧
    cleanS.fab.egress = [] ∧ (portAt (onFabric cleanS) 31).state = .up ∧
    5 < (stackAt cleanS 0).populated ∧ rideThrough cleanS = false ∧ scrubbed cleanS 0 5 = (0, 0, 5) ∧ markBank cleanS (64 * 5) = 0 ∧ upsetsIn cleanS.mem 0 (0 * stackWindow + 64 * 5) 64 = [(40, .single)] ∧
    upsetsIn cleanS.mem 0 (0 * stackWindow + 64 * 4) 64 = [] := by decide

/-- Two bits flipped in line 1 of stack 0, which is carry with a good mirror. -/
def spoiltS : State := { copiedS with mem := { copiedS.mem with upset := [(8, 3)] } }
theorem test_wit_scrub_heals : scrubbed spoiltS 0 1 = (0, 0, 1) ∧ markBank spoiltS 64 = 0 ∧
    upsetsIn spoiltS.mem 0 64 64 = [(8, .double)] ∧ spoiltS.mem.wf = true ∧ placeOf 64 = .stack 0 64 ∧
    hasCopies spoiltS 64 = true ∧ goodCopy spoiltS [1] 1 = some 1 ∧ 1 < (stackAt spoiltS 0).populated := by decide

/-- A direction in a state, with spares used, lanes failed and bad receptions in a row. -/
def linkS (st : LinkState) (spares inRow : Nat) (failed : List Nat) : State := { upS with
  noc := { upS.noc with links := [(dirKey (.site 0 1 3), { linkDefault with state := st, spares := spares, inRow := inRow, failed := failed, narrow := List.range 32, paused := true })] } }
theorem test_wit_seam_flit : (linkAt (linkS .full 0 8 []) (dirKey (.site 0 1 3))).inRow = 8 ∧
    (linkAt (linkS .full 0 7 []) (dirKey (.site 0 1 3))).inRow < 8 ∧ upsetKind 0 = .clean ∧ upsetKind 4 = .single ∧
    upsetKind 3 = .double ∧ (linkS .full 0 8 []).job.state = .none := by decide
theorem test_wit_seam_lane : (linkAt (linkS .full 3 0 []) (dirKey (.site 0 1 3))).spares < 4 ∧
    4 ≤ (linkAt (linkS .full 4 0 [1, 2, 3, 4]) (dirKey (.site 0 1 3))).spares ∧
    (linkAt (linkS .narrow 4 0 [1]) (dirKey (.site 0 1 3))).failed.contains 67 = false ∧
    (linkAt (linkS .narrow 4 0 [1]) (dirKey (.site 0 1 3))).failed.contains 1 = true ∧
    (linkAt (linkS .narrow 4 0 [1]) (dirKey (.site 0 1 3))).paused = true ∧ (linkAt upS (dirKey (.site 0 1 3))).paused = false ∧
    (linkAt (linkS .closed 4 0 []) (dirKey (.site 0 1 3))).state = .closed ∧
    16 ≤ ({ linkAt (linkS .closed 4 0 []) (dirKey (.site 0 1 3)) with failed := List.range 16 } : LinkRec).drainLanes ∧
    ({ linkAt (linkS .closed 4 0 []) (dirKey (.site 0 1 3)) with failed := List.range 17 } : LinkRec).drainLanes < 16 ∧
    maskUnit (.site 71) = some 71 ∧ maskUnit .module = none := by decide

/-- A codeword on lane 0 with a control field and a packet in its words; the decoder fails or not. -/
def cw (ok : Bool) (control : Nat) (ws : List DWord) : Codeword :=
  { lane := 0, rsOk := ok, corrected := 0, control := BitVec.ofNat 100 control, words := fillWords ws }
/-- A write of one line to line 64 of stack 0, for this module, with a type and a frame tag. -/
def wpkt (type tag : Nat) : FabPacket :=
  { header := BitVec.ofNat 128 (type + at_ tag 8 + at_ 255 24 + at_ 2 32 + at_ 1 44 + at_ 64 64), payload := List.replicate 64 9 }
theorem test_wit_codeword : (portAt (portS .up 1) 31).active.getLsbD 0 = true ∧ (portAt (portS .up 1) 31).active.getLsbD 1 = false ∧
    codewordBad (cw false 1 []) = true ∧ (portAt (portS .up 1) 31).discard = false ∧
    (portAt (portS .up 1) 31).badInRow = [] ∧ cfld (cw true 1 []) 53 2 = 0 ∧ cfld (cw true (at_ 1 53) []) 53 2 = 1 ∧
    bitAt (cw true (at_ 1 25 + at_ 1 53) []).control.toNat 25 = true ∧ (portAt (portS .up 1) 31).rxWords = [] ∧
    BitVec.ofNat 12 (cfld (cw true 1 []) 0 12) = (portAt (portS .up 1) 31).rxSeq + 1 ∧ (portS .up 1).fab.egress = [] := by decide
set_option maxRecDepth 100000 in
theorem test_wit_codeword_packet : fixedWords (cw true 1 (packetWords (wpkt 0 0))) = 0 ∧
    codewordBad (cw true 1 (packetWords (wpkt 0 0))) = false ∧ cfld (cw true 1 []) 46 7 = 0 ∧
    dataWords (cw true 1 (packetWords (wpkt 0 0))) = packetWords (wpkt 0 0) ++ List.replicate 60 idleWord ∧
    (wpkt 0 0).payload.length = 8 * payloadWords (wpkt 0 0).header ∧ (wpkt 0 0).header.extractLsb' 0 64 ≠ idleWord := by
  decide +kernel
/-- Module 1 with the test job, in frame 7. -/
def inFrame : State :=
  let s := onFabric (running [])
  { s with tick := { s.tick with seq := 7 } }
theorem test_wit_fabric_packet : arrive inFrame 31 (wpkt 0 7) = some inFrame ∧ inFrame.fab.moduleId ≠ 0 ∧
    arrive { inFrame with fab := { inFrame.fab with moduleId := 0 } } 31 (wpkt 0 7) = none ∧
    circuitAt inFrame (hCirc (wpkt 0 7).header) ≠ none ∧ inFrame.job.state = .running ∧ takesFrames inFrame = true ∧
    endsHere inFrame (wpkt 0 7).header = true ∧ hType (wpkt 8 7).header = 8 ∧ hType (wpkt 4 7).header < 5 ∧
    (frameTag inFrame + 65536 - hTag (wpkt 0 8).header) % 65536 = 65535 ∧
    (frameTag inFrame + 65536 - hTag (wpkt 0 32776).header) % 65536 = 32767 ∧
    (frameTag inFrame + 65536 - hTag (wpkt 0 9).header) % 65536 = 65534 ∧
    (frameTag inFrame + 65536 - hTag (wpkt 0 32775).header) % 65536 = 32768 ∧
    (frameTag inFrame + 65536 - hTag (wpkt 0 6).header) % 65536 = 1 ∧
    takesFrames { inFrame with tick := { inFrame.tick with recovery := { inFrame.tick.recovery with active := true } } } = false ∧
    (packetLines (wpkt 0 7)).all (fun l => lineOk inFrame false l.1 &&
      passage inFrame (72 + portRim 31) (homeUnit inFrame (72 + portRim 31) l.1) (homeLocal l.1) != .unreachable) = true ∧
    (wpkt 0 7).payload.length = 64 * (hLines (wpkt 0 7).header + 1) ∧
    lineOk inFrame false 0x0C0000000000 = false ∧ circuitAt upRun (hCirc (wpkt 0 7).header) = none := by decide

/-! ### Serving -/

/-- A serving plan of one slot. -/
def splan : ServingPlan := { batch := 0, slots := 1, tok := 4096, chunk := 4, logit := 0x10000, lfmt := 0, vocab := 2, ptab := 0x20000, flist := 0x21000, nf := 1, home := 0x1000000, tpp := 1, eos := 99, svc := 0x4000000, batcher := 0, nmin := 1 }
/-- A serving job with an addressed port, requests, slots and logits. -/
def serving (rs : List Request) (slots : Tbl SlotRec) : State :=
  let s := running []
  { s with
    job := { s.job with plan := some { plan0 with plan := some splan } }
    fab := { s.fab with ethPorts := 0x80000000 }
    svc := { s.svc with addrs := [(31, 1)], prefixLen := 0, udpPort := 4000, requests := rs, slots := slots, capacity := 8, freeFr := [5] }
    mem := { s.mem with cells := (leBytes 8 0x3F800000BF800000).zipIdx.map (fun b => (0x10000 + b.2, b.1)) } }
/-- A datagram to port 31, with the right checksum. -/
def dgramOf (payload : List Byte) : Datagram := { port := 31, mac := 3, ip := { src := 2, dst := 1, ext := false }, srcPort := 77, dstPort := 4000, checksum := udpChecksum 2 1 77 4000 payload, payload := payload }
/-- A message in one. -/
def dgram (type : Byte) (body : List Byte) : Datagram := dgramOf (messageBytes type 4 body)
def msg (type : Nat) (body : List Byte) : Message := { port := 31, src := 2, type := type, rid := 4, body := body }
def k0 : RequestKey := { src := 2, rid := 4 }
/-- A SUBMIT of a prompt of plen tokens, none given. -/
def submitB (plen maxNew : Nat) : List Byte := leBytes 4 plen ++ leBytes 4 maxNew ++ leBytes 4 0 ++ leBytes 4 0x3F800000 ++ List.replicate 48 0
/-- A request of one prompt token. -/
def req0 (st : ReqStage) : Request := { key := k0, port := 31, stage := st, accepted := false, plen := 1, maxNew := 2, temp := 0, topp := 0x3F800000, topk := 0, seed := 0, stop := [], prompt := [(0, 7)], tokens := [5, 6], fresh := 0, sent := 2, acked := 1, resends := 7, slot := none, phase := 1, pos := 3, cancel := false, retire := none, lastType := 2, lastBody := [], endedAt := 0 }
set_option maxRecDepth 100000 in
theorem test_wit_datagram : let s := serving [] []
    answers s 31 = true ∧ ownAddress s 31 1 = true ∧ answers s 30 = false ∧ ownAddress s 31 3 = false ∧
    validMessage s (dgram 1 (submitB 200 56)) = some (msg 1 (submitB 200 56)) ∧
    validMessage s (dgram 8 (leBytes 12 (at_ 1 32))) = some (msg 8 (leBytes 12 (at_ 1 32))) ∧
    validMessage s (dgram 4 (leBytes 4 2)) = some (msg 4 (leBytes 4 2)) ∧ validMessage s (dgram 5 []) = some (msg 5 []) := by
  decide +kernel
/-- A bad checksum, a short header, another MAGIC, VER, LEN and type, extension headers, another port, a source outside the prefix. -/
theorem test_wit_datagram_bad : let s := serving [] []
    checksumOk { dgram 5 [] with checksum := 1 } = false ∧ (dgramOf (leBytes 15 0)).payload.length < 16 ∧
    fieldAt (leBytes 16 0) 0 2 ≠ 0x504C ∧ fieldAt (leBytes 16 (0x504C + at_ 2 16)) 2 1 ≠ 1 ∧
    (leBytes 16 (0x504C + at_ 1 16 + at_ 1 32)).length ≠ 16 + fieldAt (leBytes 16 (0x504C + at_ 1 16 + at_ 1 32)) 4 2 ∧
    clientType (fieldAt (messageBytes 2 4 []) 3 1) = false ∧ ({ dgram 5 [] with dstPort := 1 } : Datagram).dstPort ≠ s.svc.udpPort ∧
    allowedSource { s with svc := { s.svc with prefixLen := 128 } } 2 = false := by decide +kernel
theorem test_wit_submit : findRequest (serving [] []) k0 = none ∧ takesRequests (serving [] []) = true ∧
    servingPlan (serving [] []) = some splan ∧ submitOk (submitB 200 56) = true ∧ submitOk (submitB 0 56) = false ∧
    (newRequest (serving [] []) (msg 1 (submitB 200 56))).plen + (newRequest (serving [] []) (msg 1 (submitB 200 56))).maxNew = 256 * splan.tpp ∧
    256 * splan.tpp < (newRequest (serving [] []) (msg 1 (submitB 200 57))).plen + (newRequest (serving [] []) (msg 1 (submitB 200 57))).maxNew ∧
    ((serving [] []).svc.requests.filter Request.live).length < 4096 ∧ takesRequests upRun = false ∧
    findRequest (serving [req0 .queued] []) k0 = some (req0 .queued) ∧ (req0 .queued).live = true ∧ (req0 .queued).lastType ≠ 0 := by decide
theorem test_wit_submit_full : 4096 ≤ ((serving (List.replicate 4096 (req0 .queued)) []).svc.requests.filter Request.live).length := by
  have h : (List.replicate 4096 (req0 .queued)).filter Request.live = List.replicate 4096 (req0 .queued) :=
    List.filter_eq_self.2 (fun x hx => by rw [(List.mem_replicate.1 hx).2]; decide)
  show 4096 ≤ ((List.replicate 4096 (req0 .queued)).filter Request.live).length
  exact Nat.le_of_eq (by rw [h, List.length_replicate])
/-- A prompt datagram of one token at place 0, an ACK. -/
theorem test_wit_prompt : findRequest (serving [req0 .collecting] []) k0 = some (req0 .collecting) ∧ (req0 .collecting).key = k0 ∧
    fieldAt (leBytes 12 (at_ 1 32)) 4 4 = 1 ∧ (leBytes 12 (at_ 1 32)).length = 8 + 4 * 1 ∧
    fieldAt (leBytes 12 (at_ 1 32)) 0 4 + 1 ≤ (req0 .collecting).plen ∧ (leBytes 4 2).length = 4 ∧
    (req0 .collecting).acked < fieldAt (leBytes 4 2) 0 4 ∧ fieldAt (leBytes 4 2) 0 4 ≤ (req0 .collecting).sent ∧
    (req0 .collecting).sent < fieldAt (leBytes 4 3) 0 4 := by decide
theorem test_wit_resend : (req0 .running).acked < (req0 .running).sent ∧ (req0 .running).resends < 8 ∧
    8 ≤ ({ req0 .running with resends := 8 } : Request).resends ∧ (req0 .running).live = true ∧
    ({ req0 .ended with acked := 2 } : Request).sent ≤ ({ req0 .ended with acked := 2 } : Request).acked ∧
    (req0 .queued).stage ≠ .collecting ∧ (req0 .collecting).stage ≠ .queued := by decide
/-- A slot with the request, of the phase that does not run. -/
def slot0 (pages : Tbl Nat) : SlotRec := { key := some k0, phase := 1, ntok := 0, pages := pages }
def free1 : Request := { req0 .queued with pos := 0 }
theorem test_wit_batch : servingPlan (serving [free1] []) = some splan ∧ mayServe (serving [free1] []) = true ∧ mayServe upS = false ∧
    free1.stage = .queued ∧ free1.cancel = false ∧ vacantSlot (serving [free1] []) splan = some 0 ∧
    roomFor { serving [free1] [] with svc := { (serving [free1] []).svc with freeFr := [5, 6, 7, 8] } } splan (1 - framePhase (serving [free1] [])) 0 free1 = true := by decide
/-- Every page, entry and token of the plan lies in stack 0, and each rim die reaches it. -/
theorem test_wit_reach (s : State) (x : Nat) (h : x < stackWindow) :
    passage s (72 + 0) (homeUnit s (72 + 0) x) (homeLocal x) ≠ .unreachable := by
  have hp : placeOf x = .stack 0 x := by
    unfold placeOf
    have h1 : x < 0x040000000000 := Nat.lt_trans h (by decide)
    rw [if_pos h1, Nat.div_eq_of_lt h, Nat.mod_eq_of_lt h]
  simp [homeUnit, hp, passage]
theorem test_wit_reach_tokens : ∀ n ∈ List.range 16,
    passage (serving [] []) (72 + n) (homeUnit (serving [] []) (72 + n) 4096) (homeLocal 4096) ≠ .unreachable := by decide
theorem test_wit_reach_ends : entryAddr splan 1 0 + 64 * 1 ≤ stackWindow ∧ tokenAddr splan 0 = 4096 ∧ splan.batcher = 0 ∧
    pageStack splan 0 255 = 0 ∧ frameAddr 5 + pageBytes ≤ stackWindow ∧ pageHome splan 0 255 + pageBytes ≤ stackWindow ∧
    pageEntry splan 0 255 + 4 ≤ stackWindow := by decide
theorem test_wit_pages : slotRequest (serving [free1] [(0, slot0 [])]) (slot0 []) = some free1 ∧ (slot0 []).phase ≠ framePhase (serving [free1] []) ∧
    2 < nextPages splan free1 ∧ tfind (slot0 []).pages 2 = none ∧ (serving [free1] []).svc.freeFr = [5] ∧
    tfind (slotAt (serving [free1] [(0, slot0 [(255, 5)])]) 0).pages 255 = some 5 := by decide
theorem test_wit_sample : slotRequest (serving [req0 .running] [(0, slot0 [])]) (slot0 []) = some (req0 .running) ∧
    (req0 .running).retire = none ∧ 0 < (req0 .running).pos ∧ (req0 .running).pos = (req0 .running).total ∧
    drawToken (logitRow (serving [req0 .running] [(0, slot0 [])]) splan 0) 0 0x3F800000 0 0 = .token 1 ∧
    drawToken [0xFF800000, 0x7FC00000] 0 0x3F800000 0 0 = .noValue := by decide
/-- A draw whose random number rounds to 1 in FP32: no running sum exceeds the goal, and the rule states no token. -/
theorem test_wit_sample_unstated : drawToken [0x3F800000, 0x3F800000] 0x3F800000 0x3F800000 0 (2 ^ 64 - 1) = .unstated := by
  decide +kernel
theorem test_wit_ethernet : answers (serving [] []) 31 = true ∧ ownAddress (serving [] []) 31 (solicitedNode 1) = true ∧
    portAddr (serving [] []) 31 = 1 ∧ (serving [] []).fab.ethPorts.getLsbD 31 = true ∧
    (serving [] []).fab.ethPorts.getLsbD 30 = false ∧ answers (serving [] []) 30 = false := by decide

/-! ### Terms that are not well-formed, one or more for each check -/

/-- A datagram one byte too long (12 Table 12.2). -/
def longDgram : Datagram :=
  { port := 31, mac := 3, ip := { src := 2, dst := 1, ext := false }, srcPort := 77, dstPort := 4000, checksum := 0, payload := List.replicate 9151 0 }
/-- A transfer one byte longer than 32 bits count (16 R423). -/
def longData : List Byte := List.replicate (2 ^ 32 + 1) 0

theorem longData_length : longData.length = 2 ^ 32 + 1 := List.length_replicate

theorem test_ill_long_transfers : let p : Party := .can .north 1
    (Instr.memoryWindowWrite p longData).wf = false ∧ (Instr.memoryWindowRead p (2 ^ 32 + 1)).wf = false ∧
    (Instr.stagedFieldWrite p .r2002 1 longData).wf = false ∧ (Instr.objectWrite p 0x1017 0 longData).wf = false ∧
    (Instr.usdoSegment p 0x1017 0 (.write longData true)).wf = false ∧ (Instr.usdoSegment p 0x1017 0 (.read (2 ^ 32 + 1))).wf = false ∧
    (Instr.attestationChallenge p longData).wf = false ∧ (Instr.imageSetUpload p longData).wf = false ∧
    (Instr.defectListClearRequest p longData).wf = false ∧ (Instr.managementRoutesWrite p longData).wf = false := by
  simp only [Instr.wf, longData_length]
  decide

theorem test_ill_repeats : let l : LaneFail := { dir := .site 0 0 0, lane := 67 }
    let ok : TrainingReport := { unread := [.south], lanes := [l], channels := [(0, 63)], cores := [(15, 3)], rimFail := [15] }
    (Instr.seamResetComplete 0 [l, l]).wf = false ∧ (Instr.startUpAgreement 0 ok).wf = true ∧
    (Instr.startUpAgreement 0 { ok with lanes := [l, l] }).wf = false ∧
    (Instr.startUpAgreement 0 { ok with channels := [(0, 63), (0, 63)] }).wf = false ∧
    (Instr.startUpAgreement 0 { ok with cores := [(15, 3), (15, 3)] }).wf = false ∧
    (Instr.startUpAgreement 0 { ok with rimFail := [15, 15] }).wf = false ∧
    (Instr.startUpAgreement 0 { ok with unread := [.north, .north] }).wf = false := by decide

theorem test_ill_readings : let c : ClusterActivity :=
      { k := 0, cycles := [], spin := 0, bubbles := 0, stalls := [], misses := [], issue := 0, wtWaits := 0, mashWaits := 0 }
    let w : RailWindow := { unit := .rim 3, rail := 2, m := 1, e := 1, absent := false }
    let k : CalibrationInputs := { rails := [w], clockSwitch := false, inputNorth := 0, inputSouth := 0, railsNorth := 0,
                                   railsSouth := 0, inRangeNorth := true, inRangeSouth := true }
    (Instr.controlStep step0).wf = true ∧ (Instr.controlStep { step0 with clusters := [c, c] }).wf = false ∧
    (Instr.controlStep { step0 with sites := step0.sites ++ step0.sites }).wf = false ∧
    (Instr.calibrationWindow k).wf = true ∧ (Instr.calibrationWindow { k with rails := [w, w] }).wf = false := by decide

theorem test_ill_rims : let r : RimReading := { n := 3, serdes := 0, rim := 0, cask := 0, onSerdes := 0, onRim := 0, onCask := 0, junction := 0 }
    (Instr.controlStep { step0 with rims := [r] }).wf = true ∧ (Instr.controlStep { step0 with rims := [r, r] }).wf = false := by decide

theorem test_ill_failures :
    (Instr.computeResetComplete 0 [.bankRow 0 0 (2 ^ 15 - 1)] 255).wf = true ∧
    (Instr.computeResetComplete 0 [.bankRow 0 0 (2 ^ 15)] 255).wf = false ∧
    (Instr.selfTestComplete 0 [.cacheGroup (2 ^ 20)]).wf = false ∧
    (Instr.hazeThresholdExceeded (.bankRow 0 0 0 (2 ^ 15))).wf = false ∧
    (Instr.hazeThresholdExceeded (.cacheGroup 0 (2 ^ 20))).wf = false ∧
    (Instr.jobStartCopiesDone (some { code := 7, rim := 0, line := 0 })).wf = false ∧
    (Instr.jobStartCopiesDone (some { code := 8, rim := 0, line := 0 })).wf = true := by decide

theorem test_ill_packets :
    (Instr.managementForward 0 { header := 5, payload := List.replicate 63 0 }).wf = false ∧
    (Instr.fabricPacketReceived 0 0 { header := 5, payload := List.replicate 63 0 }).wf = false ∧
    (Instr.domainVoteReceived 0 0 { header := 7, payload := List.replicate 63 0 } 0).wf = false ∧
    (Instr.fabricCodewordReceived 0 { cw true 0 [] with words := List.replicate 69 0 }).wf = false ∧
    (Instr.fabricCodewordReceived 0 { cw true 0 [] with corrected := 16 }).wf = false ∧
    (Instr.seamFlitReceived (.site 0 0 0) (List.replicate 9 1) none).wf = false ∧
    (Instr.firmwareChunkReceived 0 0 { chunk7 with data := [] }).wf = false ∧
    (Instr.repairRequestReceived 0 0 [(2, 1)]).wf = false ∧
    (Instr.repairRequestReceived 0 0 (List.replicate 65 (1, 1))).wf = false := by decide

theorem test_ill_long_packets :
    (Instr.managementRequest { mreq 0 0 with data := List.replicate 8193 0 }).wf = false ∧
    (Instr.managementForward 0 { header := 5, payload := List.replicate 8256 0 }).wf = false ∧
    (Instr.firmwareChunkReceived 0 0 { chunk7 with data := List.replicate 4097 0 }).wf = false ∧
    (Instr.submit longDgram 0).wf = false ∧ (Instr.prompt longDgram).wf = false ∧ (Instr.ack longDgram).wf = false ∧
    (Instr.cancel longDgram).wf = false ∧ (Instr.discardedDatagram 0 (.datagram longDgram)).wf = false ∧
    (Instr.echoRequest 0 { src := 0, dst := 0, ext := false } 0 (List.replicate 9151 0)).wf = false := by
  simp only [Instr.wf, MgmtRequest.wf, FabPacket.wf, Chunk.wf, Datagram.wf, DiscardReason.wf, longDgram, List.length_replicate]
  decide

theorem test_ill_galt : (Instr.galt 7 .g2).wf = true ∧ (Instr.galt 7 .g1).wf = false ∧ (Instr.galt 8 .g3).wf = false := by decide

/-! ### The example of 08 R239: the word 4.0, one bit flipped, two bits flipped, a check bit flipped -/

theorem test_check_byte : checkByte 0x40800000 = 0x28 := by decide
theorem test_check_one : checkCodeword (codeword 0x40800000 ^^^ (1 <<< 30)) = .corrected 0x40800000 := by decide
theorem test_check_two : checkCodeword (codeword 0x40800000 ^^^ (1 <<< 30) ^^^ (1 <<< 23)) = .bad := by decide
theorem test_check_check_bit : checkCodeword (codeword 0x40800000 ^^^ (1 <<< 67)) = .corrected 0x40800000 := by decide

/-! ### Values that the spec works out -/

/-- Codes of values in a block, and the flags: the exact values are the FP32 words given. -/
def blockCodes (f : Elem) (ws : List Word) : Byte × List Nat × Flags := encodeBlock f (ws.map val32) (ws.map val32)

-- 03 R70: 5.3 and 1.00390625 to BF16; 300 to E4M3 and E5M2; 500 to E4M3
theorem test_narrow_bf16 : Elem.bf16.encode false (val32 0x40A9999A) = (0x40AA, flagNone) ∧
    Elem.bf16.encode false (val32 0x3F808000) = (0x3F80, flagNone) := by decide
theorem test_narrow_fp8 : Elem.e4m3.encode false (val32 0x43960000) = (0x79, flagNone) ∧
    Elem.e5m2.encode false (val32 0x43960000) = (0x5D, flagNone) ∧
    Elem.e4m3.encode false (val32 0x43FA0000) = (0x7E, flagSaturate) := by decide
-- 03 R72: 1,000 and 3.0 in MXFP8 E4M3; 13.5 and 0.3 in MXFP6 E2M3; 13.5 and 0.8 in MXFP6 E3M2; 5.0 and -2.6 in MXFP4
theorem test_block_e4m3 : blockCodes .e4m3 [0x447A0000, 0x40400000] = (0x80, [0x7E, 0x3C], flagSaturate) := by decide
theorem test_block_e2m3 : blockCodes .e2m3 [0x41580000, 0x3E99999A] = (0x80, [0x1E, 0x01], flagNone) := by decide
theorem test_block_e3m2 : (blockCodes .e3m2 [0x41580000, 0x3F4CCCCD]).1 = 0x7E ∧
    (blockCodes .e3m2 [0x41580000, 0x3F4CCCCD]).2.1.drop 1 = [0x0E] := by decide
theorem test_block_e2m1 : blockCodes .e2m1 [0x40A00000, 0xC0266666] = (0x7F, [0x6, 0xD], flagNone) ∧
    (blockCodes .e2m1 [0x40A00000, 0x7F800000]).1 = 0xFF := by decide
-- 03 R79, R82: 4096 x 4096, then 1 x 1 twice, drained to FP32 and to BF16; an overflow, then minus infinity
theorem test_pair : let p0 := (accumulate 0 (product (val32 0x45800000) (val32 0x45800000)).1).1
    let p1 := (accumulate p0 one32).1
    let p2 := (accumulate p1 one32).1
    p0 = mkPair 0x4B800000 0 ∧ p1 = mkPair 0x4B800000 0x3F800000 ∧ p2 = mkPair 0x4B800000 0x40000000 ∧
    round32 (pairVal p2) = (0x4B800001, flagNone) ∧ Elem.bf16.encode false (pairVal p2) = (0x4B80, flagNone) := by decide
theorem test_pair_overflow : let p := accumulate (mkPair 0x7F61B1E6 0) 0x7E967699
    p = (mkPair 0x7F800000 0, flagOverflow) ∧ accumulate p.1 0xFF800000 = (mkPair nan32 0, flagInvalid) := by decide
-- 06 R183: the adaptive moment of one element
theorem test_adaptive : let p : Params :=
      { lr := 0x3A800000, b1 := 0x3F000000, b2 := 0x3F400000, eps := 0x35800000, wd := 0, gs := one32, c1 := 0x40000000, c2 := 0x40800000 }
    let r := updateElem 1 p 0x3E800000 0x3F000000 0 0
    r.w = 0x3EFF8000 ∧ r.m = 0x3E000000 ∧ r.v = 0x3C800000 := by decide +kernel
-- 06 Table 6.10: windows 1, 2, 3, 4, 5, 6 and 7
theorem test_grist : let close (g : Grist) (t m : Nat) : Grist := gristClose { g with n := 1048576, lossT := t, lossM := m, lossE := 1048576 } 10 3
    let g1 := close (gristInit 0) 900 120; let g2 := close g1 2400 300; let g3 := close g2 1900 250; let g4 := close g3 800 90
    let g5 := close g4 3000 400; let g6 := close g5 3000 400; let g7 := close g6 3100 410
    [g1, g2, g3, g4, g5, g6, g7].map (fun g => (g.fmt, g.streak)) =
      [(9#4, 0), (9#4, 1), (9#4, 2), (9#4, 0), (9#4, 1), (9#4, 2), (7#4, 0)] := by decide
-- 11 Table 11.17: the header of one packet, and the rate cut of its echo
theorem test_header : mkHeader (headerLow 0 false false false 0x3A07 5 0x12 0x27 0 0)
    (headerBulk (0x08001234_0000 / 64) 127 0x103 10 false false) = 0x2A07FC200048D000_00027012053A0700#128 := by decide
-- 01 Table 1.7: the address 0x080A_D123_4540 is byte 0x0123_4540 of logical cluster 346
theorem test_place : placeOf 0x080AD1234540 = .pad 346 0x01234540 ∧ 0x01234540 / 64 = 0x48D15 := by decide
-- 01 R20: the slate of row 5 in column 6, site 21 retired
def rowS : State := { State.reset with
  topo := { State.reset.topo with slateCol := [4, 4, 4, 4, 4, 6, 4, 4], sites := [(21, { siteDefault State.reset.topo 21 with state := .dark })] } }
theorem test_numbers : (runningSet rowS).length = 64 ∧ ((runningSet rowS).drop 16).take 8 = [18, 19, 20, 22, 23, 24, 25, 26] ∧
    ((runningSet rowS).drop 40).take 8 = [45, 46, 47, 48, 49, 50, 52, 53] := by decide +kernel
-- 06 R159: e to the 1 is 402DF854h; the words within 2 units in the last place are within the bound, NaN is not
theorem test_bound : expWord one32 = 0x402DF854 ∧ withinBound (fixExp (fixOf one32)) 0x402DF856 = true ∧
    withinBound (fixExp (fixOf one32)) 0x402DF857 = false ∧ withinBound (fixExp (fixOf one32)) nan32 = false ∧
    (round32 (fixVal (fixLog 0x40000000))).1 = 0x3F317218 ∧ (round32 (fixVal (fixTanh (fixOf one32)))).1 = 0x3F42F7D6 := by
  decide +kernel

end Sys2Proof.Tests
end

/-! ## Memory keeps its canonical form (01 R25, 02 R52)

One lemma for each function of the model that a command passes through, in the model's order: `f_mem` where it leaves
memory alone, `wf_f` where it writes memory and keeps its canonical form. `canon_exec` gathers the commands, and the
invariant of every step follows. -/

namespace Sys2Proof.Machine
open Sys2Proof

/-! ### Outcomes and effects in canonical form -/

/-- An outcome whose next state has its memory in canonical form. -/
def Canon : Host.Outcome State Fault Refusal → Prop
  | .next t => t.mem.wf = true
  | .fault _ => True
  | .refused _ => True

@[simp] theorem canon_next (t : State) : Canon (.next t) ↔ t.mem.wf = true := Iff.rfl

/-- An effect that may not take place: where it does, memory is in canonical form. -/
def CanonOpt (o : Option State) : Prop := ∀ t, o = some t → t.mem.wf = true

@[simp] theorem canonOpt_none : CanonOpt none := by simp [CanonOpt]

@[simp] theorem canonOpt_some (t : State) : CanonOpt (some t) ↔ t.mem.wf = true := by simp [CanonOpt]

theorem wf_getD {o : Option State} {s : State} (ho : CanonOpt o) (h : s.mem.wf = true) : (o.getD s).mem.wf = true := by
  cases o with
  | none => exact h
  | some t => exact ho t rfl

theorem wf_ite {c : Prop} [Decidable c] {s t : State} (hs : s.mem.wf = true) (ht : t.mem.wf = true) :
    (if c then s else t).mem.wf = true := by
  split
  · exact hs
  · exact ht

theorem wf_put_ite {c : Prop} [Decidable c] {x y : Put} (hx : x.1.mem.wf = true) (hy : y.1.mem.wf = true) :
    (if c then x else y).1.mem.wf = true := by
  split
  · exact hx
  · exact hy

/-! ### Machine/Ops -/

@[simp] theorem drawNat_mem (s : State) : (drawNat s).2.mem = s.mem := rfl

/-! ### Machine/Seams -/

@[simp] theorem modLink_mem (s : State) (key : Nat) (f : LinkRec → LinkRec) : (modLink s key f).mem = s.mem := rfl

@[simp] theorem setMask_mem (s : State) (u : Nat) (m : List Nat) : (setMask s u m).mem = s.mem := rfl

/-! ### Machine/Faults -/

@[simp] theorem queueEmcy_mem (s : State) (h : Half) (r : BitVec 128) : (queueEmcy s h r).mem = s.mem := by
  unfold queueEmcy
  split <;> rfl

@[simp] theorem writeDefects_mem (s : State) (l : List DWord) : (writeDefects s l).mem = s.mem := by
  unfold writeDefects
  split <;> rfl

@[simp] theorem addDefect_mem (s : State) (kind origin unit detail : Nat) :
    (addDefect s kind origin unit detail).mem = s.mem := by
  simp [addDefect]

@[simp] theorem retire_mem (s : State) (unit : UnitId) (kind detail action eng lcl : Nat) :
    (retire s unit kind detail action eng lcl).mem = s.mem := by
  simp [retire]

@[simp] theorem endRequest_mem (s : State) (r : Request) : (endRequest s r).mem = s.mem := by
  unfold endRequest
  split <;> rfl

@[simp] theorem beginSeamReset_mem (s : State) (n : Nat) : (beginSeamReset s n).mem = s.mem := by
  simp [beginSeamReset]

theorem wf_endJobSpoilt (s : State) (reason code : Nat) (h : s.mem.wf = true) :
    (endJobSpoilt s reason code).mem.wf = true := by
  unfold endJobSpoilt
  split <;> simp [wf_endJob, wf_spoilCarry, h]

theorem wf_revokeJob (s : State) (h : s.mem.wf = true) : (revokeJob s).mem.wf = true := by
  simp [revokeJob, wf_endJobSpoilt, h]

theorem wf_healKeys (s : State) (ks : List Nat) (h : s.mem.wf = true) : (healKeys s ks).mem.wf = true := h

theorem wf_fixStack (s : State) (n a len : Nat) (h : s.mem.wf = true) : (fixStack s n a len).mem.wf = true := by
  unfold fixStack
  dsimp only
  split <;> simp [wf_healKeys, h]

@[simp] theorem failSite_mem (s : State) (n : Nat) (dark : Bool) : (failSite s n dark).mem = s.mem := rfl

theorem wf_streamFault (s : State) (k code engine pc : Nat) (h : s.mem.wf = true) :
    (streamFault s k code engine pc).mem.wf = true := by
  simp [streamFault, wf_raise, h]

theorem wf_addressFault (s : State) (k engine pc addr kind : Nat) (h : s.mem.wf = true) :
    (addressFault s k engine pc addr kind).mem.wf = true := by
  simp [addressFault, wf_raise, h]

/-! ### Machine/Route -/

@[simp] theorem countFallback_mem (s : State) (a : Nat) (primary : Bool) :
    (countFallback s a primary).mem = s.mem := by
  unfold countFallback
  split <;> rfl

theorem wf_inject (s : State) (a b u : Nat) (waiting : Bool) (put : State → Transit → State)
    (hp : ∀ t w, t.mem.wf = true → (put t w).mem.wf = true) (h : s.mem.wf = true) :
    (inject s a b u waiting put).mem.wf = true := by
  unfold inject
  repeat' split
  · exact h
  · exact wf_routeFault _ _ _ h
  · exact hp _ _ h
  · exact hp _ _ h
  · exact hp _ _ (by simpa using h)

theorem wf_releaseWay (s : State) (w : Transit) (h : s.mem.wf = true) : (releaseWay s w).1.mem.wf = true := by
  unfold releaseWay
  repeat' split
  all_goals simp [wf_routeFault, h]

theorem wf_moveOn (s : State) (full : Hop → Bool) (w : Transit) (h : s.mem.wf = true) :
    (moveOn s full w).1.mem.wf = true := by
  unfold moveOn
  dsimp only
  repeat' split
  all_goals simp [wf_releaseWay, h]

/-! ### Machine/Sync -/

theorem wf_signalImage (s : State) (k : Nat) (t : Task) (g : Signal) (h : s.mem.wf = true) :
    (signalImage s k t g).mem.wf = true := wf_storePlain _ _ _ h

theorem wf_applySignal (s : State) (g : Signal) (h : s.mem.wf = true) : (applySignal s g).mem.wf = true := by
  unfold applySignal
  dsimp only
  repeat' split
  all_goals simp [wf_signalImage, h]

theorem wf_receiveSignal (s : State) (g : Signal) (h : s.mem.wf = true) : CanonOpt (receiveSignal s g) := by
  unfold receiveSignal
  dsimp only
  repeat' split
  all_goals simp [wf_applySignal, h]

theorem wf_localSignal (s : State) (k e : Nat) (q : QInstr) (h : s.mem.wf = true) :
    (localSignal s k e q).mem.wf = true := by
  unfold localSignal
  split <;> simp [wf_applySignal, h]

theorem wf_sendThrough (s : State) (k line ord c n : Nat) (h : s.mem.wf = true) :
    (sendThrough s k line ord c n).mem.wf = true := wf_sendBulk _ _ _ _ _ h

theorem wf_checkParts (s : State) (k : Nat) (rs : List (Nat × Nat)) (h : s.mem.wf = true) :
    (checkParts s k rs).1.mem.wf = true := by
  induction rs generalizing s with
  | nil => exact h
  | cons r rs ih =>
    unfold checkParts
    dsimp only
    split
    · exact wf_checkPad _ _ _ _ h
    · exact ih _ (wf_checkPad _ _ _ _ h)

theorem wf_checkRanges (s : State) (k : Nat) (rs : List Range) (h : s.mem.wf = true) :
    (checkRanges s k rs).1.mem.wf = true := wf_checkParts _ _ _ h

@[simp] theorem startInstr_mem (s : State) (k e : Nat) (q : QInstr) (reads : Nat) :
    (startInstr s k e q reads).mem = s.mem := rfl

theorem wf_guarded (s : State) (k e : Nat) (q : QInstr) (rs : List Range) (eff : State → State)
    (he : ∀ t, t.mem.wf = true → (eff t).mem.wf = true) (h : s.mem.wf = true) :
    (guarded s k e q rs eff).mem.wf = true := by
  have hc := wf_checkRanges s k rs h
  unfold guarded
  split
  · exact wf_addressFault _ _ _ _ _ _ h
  · dsimp only
    split
    · exact wf_dataErrorPad _ _ _ _ _ hc
    · exact he _ hc

/-- The effect of an engine instruction is given as an outcome: a plain `State` would have the kernel unfold the effect
where it compares the two. -/
theorem wf_runEngine (s : State) (k e op : Nat) (cond : State → QInstr → Bool) (eff : State → QInstr → State)
    (he : ∀ t q, t.mem.wf = true → Canon (.next (eff t q))) (h : s.mem.wf = true) :
    (runEngine s k e op cond eff).mem.wf = true := by
  have ht : ∀ q, (eff (startInstr s k e q 0) q).mem.wf = true := fun q => (canon_next _).1 (he _ q (by simpa using h))
  unfold runEngine
  dsimp only
  repeat' split
  · exact h
  · exact h
  · exact ht _
  · exact h

/-! ### Machine/FabricSend -/

@[simp] theorem modPort_mem (s : State) (p : Nat) (f : PortRec → PortRec) : (modPort s p f).mem = s.mem := rfl

@[simp] theorem emitFab_mem (s : State) (o : FabOut) : (emitFab s o).mem = s.mem := rfl

@[simp] theorem sendCodeword_mem (s : State) (p : Nat) (c : TxCodeword) : (sendCodeword s p c).mem = s.mem := rfl

@[simp] theorem sendIdle_mem (s : State) (p : Nat) (nak : Bool) : (sendIdle s p nak).mem = s.mem := rfl

@[simp] theorem sendBeacon_mem (s : State) (p : Nat) (seq : DWord) (offset hops : Nat) :
    (sendBeacon s p seq offset hops).mem = s.mem := rfl

@[simp] theorem sendStream_mem (s : State) (p : Nat) (ws : List DWord) (l : List Span) :
    (sendStream s p ws l).mem = s.mem := foldl_mem _ (fun _ _ => by simp) _ _

@[simp] theorem startPacket_mem (s : State) (port : Nat) (x : Egress) : (startPacket s port x).1.mem = s.mem := rfl

@[simp] theorem startAll_mem (p n : Nat) (s : State) (ws : List DWord) (l : List Span) :
    (startAll p n s ws l).mem = s.mem := by
  induction n generalizing s ws l with
  | zero => simp [startAll]
  | succ n ih =>
    unfold startAll
    split <;> simp [ih]

@[simp] theorem servePort_mem (s : State) (p : Nat) : (servePort s p).mem = s.mem := by
  unfold servePort
  split <;> simp

theorem wf_routeHeld (s : State) (x : Egress) (h : s.mem.wf = true) : (routeHeld s x).mem.wf = true := by
  unfold routeHeld
  repeat' split
  all_goals simp [wf_raise, h]

theorem wf_flushEgress (s : State) (h : s.mem.wf = true) : (flushEgress s).mem.wf = true := by
  unfold flushEgress
  split
  · exact h
  · exact wf_foldl _ (fun t p ht => by simpa using ht) _ _ (wf_foldl _ (fun t x ht => wf_routeHeld t x ht) _ _ h)

theorem wf_enqueue (s : State) (x : Egress) (h : s.mem.wf = true) : (enqueue s x).mem.wf = true := wf_flushEgress _ h

theorem wf_queueMgmt (s : State) (sp : SentPacket) (p : FabPacket) (h : s.mem.wf = true) :
    (queueMgmt s sp p).mem.wf = true := by
  unfold queueMgmt
  split <;> simp [wf_enqueue, h]

theorem wf_leaveRim (s : State) (sp : SentPacket) (p : FabPacket) (h : s.mem.wf = true) :
    (leaveRim s sp p).mem.wf = true := by
  unfold leaveRim
  split <;> simp [wf_queueMgmt, wf_enqueue, h]

theorem wf_enterRim (s : State) (sp : SentPacket) (p : FabPacket) (h : s.mem.wf = true) :
    (enterRim s sp p).mem.wf = true := by
  unfold enterRim
  split <;> simp [wf_leaveRim, h]

theorem wf_crossPanel (s : State) (src dst : Nat) (sp : SentPacket) (g : Option Signal) (p : FabPacket)
    (h : s.mem.wf = true) : (crossPanel s src dst sp g p).mem.wf = true := by
  unfold crossPanel
  split
  · exact wf_inject _ _ _ _ _ _ (fun _ _ ht => ht) h
  · exact wf_foldl _ (fun t i ht => wf_sendBulk t _ _ _ _ ht) _ _ h

theorem wf_sendFab (s : State) (src : Nat) (sp : SentPacket) (g : Option Signal) (p : FabPacket)
    (h : s.mem.wf = true) : (sendFab s src sp g p).mem.wf = true := by
  unfold sendFab
  dsimp only
  repeat' split
  all_goals simp [wf_enterRim, wf_crossPanel, h]

theorem wf_releaseOrd (s : State) (i : Nat) (h : s.mem.wf = true) : (releaseOrd s i).mem.wf = true := by
  unfold releaseOrd
  dsimp only
  repeat' split
  all_goals simp [wf_leaveRim, h]

theorem wf_sendBare (s : State) (p : FabPacket) (h : s.mem.wf = true) : (sendBare s p).mem.wf = true :=
  wf_enqueue _ _ h

theorem wf_sendMgmt (s : State) (p : FabPacket) (h : s.mem.wf = true) : (sendMgmt s p).mem.wf = true :=
  wf_queueMgmt _ _ _ h

/-! ### Machine/Network -/

theorem wf_putCacheSet (s : State) (site i : Nat) (c : CacheSet) (h : s.mem.wf = true) :
    (putCacheSet s site i c).mem.wf = true := h

theorem wf_cacheHeal (s : State) (site line : Nat) (h : s.mem.wf = true) : (cacheHeal s site line).mem.wf = true := h

theorem wf_cacheFill (s : State) (site line : Nat) (data : List Byte) (h : s.mem.wf = true) :
    (cacheFill s site line data).mem.wf = true := h

theorem wf_cacheDrop (s : State) (site line : Nat) (h : s.mem.wf = true) : (cacheDrop s site line).mem.wf = true := by
  unfold cacheDrop
  dsimp only
  split <;> simp [wf_cacheHeal, wf_putCacheSet, h]

theorem wf_cacheLook (s : State) (site line : Nat) (h : s.mem.wf = true) :
    (cacheLook s site line).1.mem.wf = true := by
  unfold cacheLook
  dsimp only
  repeat' split
  all_goals simp [wf_cacheDrop, wf_putCacheSet, wf_cacheHeal, h]

@[simp] theorem addWrite_mem (s : State) (k e dest : Nat) : (addWrite s k e dest).2.mem = s.mem := rfl

@[simp] theorem ackWrite_mem (s : State) (k e ord : Nat) : (ackWrite s k e ord).mem = s.mem := rfl

@[simp] theorem markIssued_mem (s : State) (k e : Nat) : (markIssued s k e).mem = s.mem := rfl

@[simp] theorem addReads_mem (s : State) (k e : Nat) (d : Int) : (addReads s k e d).mem = s.mem := rfl

theorem wf_ackAll (s : State) (src : Nat) (err : Bool) (addr : Nat) (acks : List (Nat × Nat × Nat))
    (h : s.mem.wf = true) : (ackAll s src err addr acks).mem.wf = true :=
  wf_foldl _ (fun t _ ht => wf_sendBulk t _ _ _ _ ht) _ _ h

@[simp] theorem mergeFlags_mem (s : State) (f : Flags) (acks : List (Nat × Nat × Nat)) :
    (mergeFlags s f acks).mem = s.mem := by
  unfold mergeFlags
  split
  · rfl
  · exact foldl_mem _ (fun t w => by split <;> simp) _ _

theorem wf_mergeInto (s : State) (a : Nat) (data : List Byte) (acks : List (Nat × Nat × Nat)) (h : s.mem.wf = true) :
    (mergeInto s a data acks).1.mem.wf = true := by
  have hc := wf_checkHome s a h
  unfold mergeInto
  dsimp only
  split
  · exact hc
  · split <;> simp [wf_padWrite, wf_writeBytes, hc]

theorem wf_mergeAll (acks : List (Nat × Nat × Nat)) (s : State) (a : Nat) (ds : List (List Byte))
    (h : s.mem.wf = true) : (mergeAll acks s a ds).1.mem.wf = true := by
  induction ds generalizing s a with
  | nil => exact h
  | cons d r ih =>
    have hc := wf_mergeInto s a d acks h
    unfold mergeAll
    dsimp only
    split
    · exact ih _ _ hc
    · exact hc

theorem wf_nodeSend (s : State) (code n : Nat) (t : Tree) (addr : Nat) (data : List Byte)
    (acks : List (Nat × Nat × Nat)) (h : s.mem.wf = true) : (nodeSend s code n t addr data acks).mem.wf = true := by
  unfold nodeSend
  dsimp only
  repeat' split
  all_goals simp [wf_sendBulk, wf_sendFab, h]

theorem wf_nodeReceive (s : State) (code child addr : Nat) (data : List Byte) (acks : List (Nat × Nat × Nat))
    (h : s.mem.wf = true) : CanonOpt (nodeReceive s code child addr data acks) := by
  unfold nodeReceive
  dsimp only
  repeat' split
  all_goals simp [wf_nodeSend, h]

theorem wf_sendLines (s : State) (d : Haul) (addr : Nat) (datas : List (List Byte)) (h : s.mem.wf = true) :
    (sendLines s d addr datas).mem.wf = true := wf_sendFab _ _ _ _ _ h

theorem wf_sendContribution (s : State) (d : Haul) (c : Nat × Tree) (addr : Nat) (data : List Byte)
    (h : s.mem.wf = true) : (sendContribution s d c addr data).mem.wf = true := by
  simp [sendContribution, wf_cacheDrop, wf_sendBulk, h]

theorem wf_sendPanel (s : State) (d : Haul) (addr : Nat) (datas : List (List Byte)) (h : s.mem.wf = true) :
    (sendPanel s d addr datas).mem.wf = true :=
  wf_sendBulk _ _ _ _ _ (wf_foldl _ (fun t _ ht => wf_cacheDrop t _ _ ht) _ _ h)

@[simp] theorem countLine_mem (s : State) (d : Haul) : (countLine s d).mem = s.mem := by
  unfold countLine
  split <;> rfl

@[simp] theorem Walk_begin_s (s : State) : (Walk.begin_ s).s = s := rfl

theorem wf_Walk_flush (w : Walk) (d : Haul) (h : w.s.mem.wf = true) : (w.flush d).s.mem.wf = true := by
  unfold Walk.flush
  split
  · exact h
  · dsimp only
    split
    · exact wf_sendPanel _ _ _ _ h
    · exact wf_sendLines _ _ _ _ h

theorem wf_Walk_ask (w : Walk) (d : Haul) (h : w.s.mem.wf = true) : (w.ask d).s.mem.wf = true := by
  unfold Walk.ask
  split
  · exact h
  · simp [wf_sendBulk, h]

/-- Data gathered for one packet: what was gathered before may leave first. -/
theorem wf_Walk_flush_if (w : Walk) (d : Haul) (c : Bool) (addr : Nat) (data : List Byte) (h : w.s.mem.wf = true) :
    (if c then { w with buf := w.buf ++ [data] } else { w.flush d with base := addr, buf := [data] } : Walk).s.mem.wf
      = true := by
  split
  · exact h
  · exact wf_Walk_flush w d h

theorem wf_Walk_deliver (w : Walk) (d : Haul) (addr : Nat) (data : List Byte) (h : w.s.mem.wf = true) :
    (w.deliver d addr data).s.mem.wf = true := by
  have hw : (countLine w.s d).mem.wf = true := by simpa using h
  unfold Walk.deliver
  dsimp only
  repeat' split
  · exact hw
  · exact wf_Walk_flush { w with s := countLine w.s d } d hw
  · exact wf_sendContribution _ _ _ _ _ hw
  · exact wf_mergeInto _ _ _ _ hw
  · exact wf_padWrite _ _ _ _ hw
  · exact hw
  · exact wf_Walk_flush { w with s := countLine w.s d } d hw

@[simp] theorem awaitFetch_mem (s : State) (d : Haul) (site line dst : Nat) :
    (awaitFetch s d site line dst).mem = s.mem := rfl

theorem wf_Walk_fetch (w : Walk) (d : Haul) (src dst : Nat) (h : w.s.mem.wf = true) :
    (w.fetch d src dst).s.mem.wf = true := by
  have hw := wf_Walk_flush w d h
  unfold Walk.fetch
  dsimp only
  split
  · exact hw
  · exact wf_Walk_ask _ _ hw

/-- A far line in cached mode that its cache does not hold: the reads gathered so far may leave, then the line waits for
the fetch on its way, or is fetched. -/
theorem wf_Walk_miss (w : Walk) (d : Haul) (c : Bool) (site src dst : Nat) (h : w.s.mem.wf = true) :
    (let v := if c then w.ask d else w
     if fetching v.s site (src / 64) then { v with s := awaitFetch v.s d site (src / 64) dst } else v.fetch d src dst
      : Walk).s.mem.wf = true := by
  have hv : (if c then w.ask d else w).s.mem.wf = true := by
    split
    · exact wf_Walk_ask w d h
    · exact h
  dsimp only
  generalize (if c then w.ask d else w) = v at hv
  split
  · simpa using hv
  · exact wf_Walk_fetch v d src dst hv

theorem wf_Walk_line (w : Walk) (d : Haul) (src dst : Nat) (h : w.s.mem.wf = true) :
    (w.line d src dst).s.mem.wf = true := by
  have hfail := fun a kind => wf_addressFault _ d.k d.e d.pc a kind (wf_Walk_ask _ d (wf_Walk_flush w d h))
  have hpad := wf_checkPad w.s (padCluster src) src 64 h
  have hlook := wf_cacheLook w.s (clusterHome w.s d.k) (src / 64) h
  unfold Walk.line
  split
  · exact h
  · split
    · exact hfail _ _
    · split
      · exact hfail _ _
      · split
        · dsimp only
          split
          · exact wf_dataErrorPad _ _ _ _ _ hpad
          · exact wf_Walk_deliver { w with s := _ } d _ _ hpad
        · split
          · dsimp only
            split
            · exact wf_Walk_deliver { w with s := _ } d _ _ hlook
            · exact wf_Walk_miss { w with s := _ } d _ _ src dst hlook
          · exact wf_Walk_fetch w d _ _ h

theorem wf_Walk_finish (w : Walk) (d : Haul) (h : w.s.mem.wf = true) : (w.finish d).mem.wf = true :=
  wf_Walk_ask _ _ (wf_Walk_flush _ _ h)

/-- A walk over any list of lines, each taken by an operation that keeps the form. -/
theorem wf_Walk_foldl {α : Type} (f : Walk → α → Walk) (hf : ∀ w x, w.s.mem.wf = true → (f w x).s.mem.wf = true)
    (xs : List α) (w : Walk) (h : w.s.mem.wf = true) : (xs.foldl f w).s.mem.wf = true := by
  induction xs generalizing w with
  | nil => exact h
  | cons x r ih => exact ih _ (hf w x h)

theorem wf_walkLines (d : Haul) (lines : List (Nat × Nat)) (s : State) (h : s.mem.wf = true) :
    (walkLines d lines s).mem.wf = true := by
  have hw := wf_Walk_foldl (fun w (l : Nat × Nat) => w.line d l.1 l.2) (fun w l hl => wf_Walk_line w d l.1 l.2 hl) lines
    (Walk.begin_ s) h
  simpa [walkLines] using wf_Walk_finish _ d hw

/-! ### Machine/Mash -/

@[simp] theorem setMash_mem (s : State) (k task : Nat) (m : Mash) : (setMash s k task m).mem = s.mem := rfl

theorem wf_sendTransfers (s : State) (k lane : Nat) (old new : Mash) (h : s.mem.wf = true) :
    (sendTransfers s k lane old new).mem.wf = true := by
  have hdrop (t : State) (n : Nat) (f : Nat → Nat) (ht : t.mem.wf = true) :
      ((List.range n).foldl (fun a i => cacheDrop a (clusterHome s k) (f i)) t).mem.wf = true :=
    wf_foldl _ (fun a i ha => wf_cacheDrop a _ _ ha) _ _ ht
  exact wf_foldl _ (fun t d ht => wf_sendBulk t _ _ _ _ ht) _ _
    (wf_foldl _ (fun t d ht => wf_sendBulk _ _ _ _ _ (hdrop t _ _ ht)) _ _ h)

theorem wf_mashPush (s : State) (k task lane : Nat) (rows : List (List (Val × Val))) (h : s.mem.wf = true) :
    (mashPush s k task lane rows).mem.wf = true := by
  unfold mashPush
  split <;> simp [wf_padWrites, wf_sendTransfers, h]

theorem wf_mashTake (s : State) (k task lane : Nat) (peek : Bool) (h : s.mem.wf = true) :
    (mashTake s k task lane peek).mem.wf = true := by
  unfold mashTake
  split <;> simp [wf_sendTransfers, h]

/-! ### Machine/Matrix -/

@[simp] theorem countProducts_mem (s : State) (k e formed gated : Nat) :
    (countProducts s k e formed gated).mem = s.mem := rfl

@[simp] theorem accumulateTile_mem (s : State) (k e task slot group : Nat) (opens paired : Bool)
    (a b : List (List Val)) (kdim : Nat) : (accumulateTile s k e task slot group opens paired a b kdim).mem = s.mem :=
  rfl

theorem wf_matrixMultiply (g : Bool) (s : State) (k e : Nat) (q : QInstr) (h : s.mem.wf = true) :
    (matrixMultiply g s k e q).mem.wf = true := by
  refine wf_guarded _ _ _ _ _ _ (fun t ht => ?_) h
  dsimp only
  split
  · exact wf_guarded _ _ _ _ _ _ (fun _ hu => hu) ht
  · exact wf_streamFault _ _ _ _ _ ht

theorem wf_matrixLoad (s : State) (k e : Nat) (q : QInstr) (h : s.mem.wf = true) :
    (matrixLoad s k e q).mem.wf = true := by
  simp +contextual [matrixLoad, wf_guarded, h]

@[simp] theorem matrixClear_mem (s : State) (k e : Nat) (q : QInstr) : (matrixClear s k e q).mem = s.mem := rfl

theorem wf_freeAddressFault (s : State) (k e pc kind : Nat) (h : s.mem.wf = true) :
    (freeAddressFault s k e pc kind).mem.wf = true := by
  simp [freeAddressFault, wf_addressFault, h]

theorem wf_drainTile (s : State) (k e : Nat) (q : QInstr) (d : Drain) (h : s.mem.wf = true) :
    (drainTile s k e q d).mem.wf = true := by
  unfold drainTile
  dsimp only
  split
  · exact wf_freeAddressFault _ _ _ _ _ h
  · refine wf_guarded _ _ _ _ _ _ (fun t ht => ?_) h
    have hpush : ∀ rows, (if d.mash then mashPush t k q.task d.lane rows else t).mem.wf = true :=
      fun rows => wf_ite (wf_mashPush t _ _ _ rows ht) ht
    have htake : ∀ rows, (if isDeriv d.func then
        mashTake (if d.mash then mashPush t k q.task d.lane rows else t) k q.task d.lane false
        else if d.mash then mashPush t k q.task d.lane rows else t).mem.wf = true :=
      fun rows => wf_ite (wf_mashTake _ _ _ _ _ (hpush rows)) (hpush rows)
    rw [freeSlot_mem]
    split
    · exact wf_padWrites _ _ _ (htake _)
    · exact wf_padWrites _ _ _ (htake _)

theorem wf_drainSlice (s : State) (k e : Nat) (q : QInstr) (d : Drain) (h : s.mem.wf = true) :
    (drainSlice s k e q d).mem.wf = true := by
  simp +contextual [drainSlice, wf_guarded, h]

/-! ### Machine/Movers -/

theorem wf_moveLines (merge : Bool) (s : State) (k e : Nat) (q : QInstr) (h : s.mem.wf = true) :
    (moveLines merge s k e q).mem.wf = true := wf_walkLines _ _ _ h

theorem wf_execMnop (k : ClusterId) (e : MSel) (s : State) (h : s.mem.wf = true) : Canon (execMnop k e s) := by
  simp [execMnop, wf_runEngine, h]

theorem wf_execMcopy (k : ClusterId) (e : MSel) (s : State) (h : s.mem.wf = true) : Canon (execMcopy k e s) := by
  simp +contextual [execMcopy, wf_runEngine, wf_moveLines, h]

theorem wf_execMadd (k : ClusterId) (e : MSel) (s : State) (h : s.mem.wf = true) : Canon (execMadd k e s) := by
  simp +contextual [execMadd, wf_runEngine, wf_moveLines, h]

theorem wf_sendSync (s : State) (src : Nat) (came : Option (BitVec 128)) (g : Signal) (h : s.mem.wf = true) :
    (sendSync s src came g).mem.wf = true := by
  simp [sendSync, wf_inject, h]

theorem wf_sendSignal (s : State) (g : Signal) (barrier : Bool) (lines : Nat) (h : s.mem.wf = true) :
    (sendSignal s g barrier lines).mem.wf = true := by
  have hs :
      (if g.unf then modCluster s g.srcK (fun c => { c with unfenced := c.unfenced + 1 }) else s).mem.wf = true := by
    split <;> exact h
  unfold sendSignal
  dsimp only
  generalize (if g.unf then modCluster s g.srcK (fun c => { c with unfenced := c.unfenced + 1 }) else s) = t at hs
  repeat' split
  · exact wf_sendFab _ _ _ _ _ hs
  · exact wf_getD (wf_receiveSignal _ _ hs) hs
  · exact wf_sendSync _ _ _ _ hs

theorem wf_plainSignal (s : State) (k e : Nat) (q : QInstr) (h : s.mem.wf = true) :
    (plainSignal s k e q).mem.wf = true := by
  unfold plainSignal
  split <;> simp [wf_freeAddressFault, wf_sendSignal, h]

theorem wf_execMsigAdd (k : ClusterId) (e : MSel) (s : State) (h : s.mem.wf = true) : Canon (execMsigAdd k e s) := by
  simp +contextual [execMsigAdd, wf_runEngine, wf_plainSignal, h]

theorem wf_execMsigSubtract (k : ClusterId) (e : MSel) (s : State) (h : s.mem.wf = true) :
    Canon (execMsigSubtract k e s) := by
  simp +contextual [execMsigSubtract, wf_runEngine, wf_plainSignal, h]

theorem wf_execMsigSet (k : ClusterId) (e : MSel) (s : State) (h : s.mem.wf = true) : Canon (execMsigSet k e s) := by
  simp +contextual [execMsigSet, wf_runEngine, wf_plainSignal, h]

theorem wf_relaySignal (s : State) (k e : Nat) (q : QInstr) (h : s.mem.wf = true) :
    (relaySignal s k e q).mem.wf = true := by
  unfold relaySignal
  split
  · exact wf_freeAddressFault _ _ _ _ _ h
  · extract_lets g d lines far noc s1 s2 w
    have h2 : s2.mem.wf = true := by
      dsimp only [s2]
      split <;> exact h
    have hw : w.s.mem.wf = true := wf_Walk_foldl _ (fun w l hl => wf_Walk_line w d l.1 l.2 hl) lines _ h2
    split
    · exact hw
    · exact wf_sendSignal _ _ _ _ (by rw [markIssued_mem]; exact wf_Walk_finish w d hw)

theorem wf_execMsigRelay (k : ClusterId) (e : MSel) (s : State) (h : s.mem.wf = true) :
    Canon (execMsigRelay k e s) := by
  simp +contextual [execMsigRelay, wf_runEngine, wf_relaySignal, h]

/-! ### Machine/Delivery -/

@[simp] theorem diagTrigger_mem (s : State) (k e : Nat) (q : QInstr) (later : Option InFlight) :
    (diagTrigger s k e q later).mem = s.mem := by
  unfold diagTrigger
  dsimp only
  split <;> rfl

@[simp] theorem consumeSlice_mem (s : State) (k e : Nat) (q : QInstr) : (consumeSlice s k e q).mem = s.mem := by
  unfold consumeSlice
  split <;> rfl

theorem wf_execInstructionComplete (k : ClusterId) (e : Engine) (i : Nat) (s : State) (h : s.mem.wf = true) :
    Canon (execInstructionComplete k e i s) := by
  unfold execInstructionComplete
  dsimp only
  repeat' split
  all_goals simp [wf_localSignal, h]

@[simp] theorem takeSyncPacket_mem (s : State) (i : Nat) : (takeSyncPacket s i).mem = s.mem := rfl

@[simp] theorem countSunk_mem (s : State) (u : Nat) : (countSunk s u).mem = s.mem := rfl

theorem wf_signalThere (s : State) (p : SyncPacket) (h : s.mem.wf = true) : CanonOpt (signalThere s p) := by
  unfold signalThere
  split
  · simp [wf_enterRim, h]
  · intro t ht
    obtain ⟨u, hu, rfl⟩ := Option.map_eq_some_iff.1 ht
    have hu := wf_receiveSignal s p.sig h u hu
    split <;> simp [wf_sendBare, hu]

theorem wf_deliverSignal (s : State) (i : Nat) (p : SyncPacket) (h : s.mem.wf = true) :
    (deliverSignal s i p).mem.wf = true := by
  have hm := wf_moveOn s (fun x => bufferFlits ≤ syncFlits s i x) p.way h
  unfold deliverSignal
  dsimp only
  generalize moveOn s (fun x => decide (bufferFlits ≤ syncFlits s i x)) p.way = m at hm
  repeat' split
  · simpa using hm
  · exact hm
  · simpa using hm
  · exact wf_getD (wf_signalThere _ _ (by simpa using hm)) hm

theorem wf_execSyncSignalArrival (i : Nat) (s : State) (h : s.mem.wf = true) : Canon (execSyncSignalArrival i s) := by
  unfold execSyncSignalArrival
  repeat' split
  all_goals simp [wf_deliverSignal, h]

theorem wf_applyFabricRelay (s : State) (j : Nat) (h : s.mem.wf = true) : (applyFabricRelay s j).mem.wf = true := by
  unfold applyFabricRelay
  dsimp only
  split
  · exact h
  · split
    · exact h
    · split
      · split
        · exact h
        · rename_i t ht
          exact wf_sendBare _ _ (wf_receiveSignal _ _ h t ht)
      · exact h

theorem wf_execRelaySignalApply (i : Nat) (s : State) (h : s.mem.wf = true) : Canon (execRelaySignalApply i s) := by
  unfold execRelaySignalApply
  dsimp only
  repeat' split
  all_goals simp [wf_applyFabricRelay, wf_deliverSignal, h]

@[simp] theorem takeBulk_mem (s : State) (i : Nat) : (takeBulk s i).mem = s.mem := rfl

theorem wf_deliverBulk (s : State) (i : Nat) (p : BulkPacket) (eff : State → Option State)
    (he : ∀ t, t.mem.wf = true → CanonOpt (eff t)) (h : s.mem.wf = true) : (deliverBulk s i p eff).mem.wf = true := by
  have hm := wf_moveOn s (fun x => bufferFlits < bulkFlits s i p.kind.response x + p.flits) p.way h
  unfold deliverBulk
  dsimp only
  generalize moveOn s (fun x => decide (bufferFlits < bulkFlits s i p.kind.response x + p.flits)) p.way = m at hm
  repeat' split
  · simpa using hm
  · exact hm
  · simpa using hm
  · exact wf_getD (he _ (by simpa using hm)) hm

@[simp] theorem countRelay_mem (s : State) (p : BulkPacket) : (countRelay s p).mem = s.mem := by
  unfold countRelay
  split <;> rfl

theorem wf_ackBulk (s : State) (p : BulkPacket) (err : Bool) (h : s.mem.wf = true) :
    (ackBulk s p err).mem.wf = true := wf_ackAll _ _ _ _ _ h

theorem wf_homeWrite (s : State) (a : Nat) (data : List Byte) (h : s.mem.wf = true) :
    (homeWrite s a data).mem.wf = true := by
  unfold homeWrite
  split <;> simp [wf_padWrite, wf_writeBytes, h]

theorem wf_writeHome (s : State) (p : BulkPacket) (h : s.mem.wf = true) : CanonOpt (writeHome s p) := by
  unfold writeHome
  dsimp only
  repeat' split
  all_goals simp [wf_sendBulk, wf_ackBulk, wf_homeWrite, h]

theorem wf_writeThrough (s : State) (p : BulkPacket) (copy : Nat) (h : s.mem.wf = true) :
    CanonOpt (writeThrough s p copy) := by
  unfold writeThrough
  dsimp only
  split <;> simp [wf_writeCopy, h]

theorem wf_writeMirror (s : State) (p : BulkPacket) (home : Nat) (h : s.mem.wf = true) :
    (writeMirror s p home).mem.wf = true := by
  simp [writeMirror, wf_sendBulk, wf_writeCopy, h]

theorem wf_fabricThere (s : State) (sp : SentPacket) (pkt : FabPacket) (h : s.mem.wf = true) :
    (fabricThere s sp pkt).mem.wf = true := by
  unfold fabricThere
  split <;> simp [wf_enterRim, h]

theorem wf_execBulkWriteReceived (i : Nat) (s : State) (h : s.mem.wf = true) : Canon (execBulkWriteReceived i s) := by
  unfold execBulkWriteReceived
  repeat' split
  · exact h
  · exact wf_deliverBulk _ _ _ _ (fun t ht => wf_writeHome t _ ht) h
  · exact wf_deliverBulk _ _ _ _ (fun t ht => wf_writeThrough t _ _ ht) h
  · exact wf_deliverBulk _ _ _ _ (fun t ht => (canonOpt_some _).2 (wf_writeMirror t _ _ ht)) h
  · exact wf_deliverBulk _ _ _ _ (fun t ht => (canonOpt_some _).2 (wf_fabricThere t _ _ ht)) h
  · exact h
  · exact h

theorem wf_mergeHome (s : State) (p : BulkPacket) (acks : List (Nat × Nat × Nat)) (h : s.mem.wf = true) :
    (mergeHome s p acks).mem.wf = true := by
  unfold mergeHome
  dsimp only
  split <;> simp [wf_mergeAll, wf_ackAll, h]

theorem wf_execMergeWriteReceived (i : Nat) (s : State) (h : s.mem.wf = true) :
    Canon (execMergeWriteReceived i s) := by
  unfold execMergeWriteReceived
  repeat' split
  · exact h
  · exact wf_deliverBulk _ _ _ _ (fun t ht => (canonOpt_some _).2 (wf_mergeHome t _ _ ht)) h
  · exact wf_deliverBulk _ _ _ _ (fun t ht => (canonOpt_some _).2 (wf_mergeHome t _ _ ht)) h
  · exact h
  · exact h

theorem wf_serveRead (s : State) (p : BulkPacket) (h : s.mem.wf = true) : (serveRead s p).mem.wf = true := by
  unfold serveRead
  dsimp only
  repeat' split
  all_goals simp [wf_checkLines, wf_sendBulk, h]

theorem wf_execBulkReadReceived (i : Nat) (s : State) (h : s.mem.wf = true) : Canon (execBulkReadReceived i s) := by
  unfold execBulkReadReceived
  split
  · exact h
  · split
    · exact wf_ite (wf_deliverBulk _ _ _ _ (fun t ht => (canonOpt_some _).2 (wf_serveRead t _ ht)) h) h
    · exact h

theorem wf_fillLines (s : State) (site line : Nat) (mode : BitVec 2) (ds : List (List Byte)) (h : s.mem.wf = true) :
    (fillLines s site line mode ds).mem.wf = true := by
  induction ds generalizing s line with
  | nil => exact h
  | cons d r ih =>
    unfold fillLines
    refine ih _ _ ?_
    split
    · exact wf_cacheFill _ _ _ _ h
    · exact h

theorem wf_moverLines (s : State) (k e task circ : Nat) (merge : Bool) (mode dst : Nat) (datas : List (List Byte))
    (h : s.mem.wf = true) : (moverLines s k e task circ merge mode dst datas).mem.wf = true := by
  unfold moverLines
  dsimp only
  rw [markIssued_mem]
  refine wf_Walk_finish _ _ (wf_Walk_foldl _ (fun w x hw => ?_) _ _ (by simpa using h))
  split
  · exact hw
  · exact wf_Walk_deliver _ _ _ _ hw

theorem wf_useData (s : State) (p : BulkPacket) (mode : BitVec 2) (dst circ : Nat) (merge : Bool)
    (h : s.mem.wf = true) : (useData s p mode dst circ merge).mem.wf = true := by
  have hl := wf_moverLines _ p.k p.e p.task circ merge mode.toNat dst (chunksOf 64 p.data)
    (wf_fillLines s p.way.dest (p.addr / 64) mode (chunksOf 64 p.data) h)
  unfold useData
  dsimp only
  split
  · exact hl
  · exact wf_foldl _ (fun t m ht => wf_moverLines t _ _ _ _ _ _ _ _ ht) _ _ hl

theorem wf_execReadDataReceived (i : Nat) (s : State) (h : s.mem.wf = true) : Canon (execReadDataReceived i s) := by
  unfold execReadDataReceived
  split
  · exact h
  · split
    · exact wf_ite (wf_deliverBulk _ _ _ _ (fun t ht => (canonOpt_some _).2 (wf_useData t _ _ _ _ _ ht)) h) h
    · exact h

@[simp] theorem writerPc_mem (s : State) (k e ord : Nat) : (writerPc s k e ord).2.mem = s.mem := by
  unfold writerPc
  split <;> rfl

@[simp] theorem countRemoteRelay_mem (s : State) (h : BitVec 128) : (countRemoteRelay s h).mem = s.mem := by
  unfold countRemoteRelay
  split <;> rfl

theorem wf_inboundAck (s : State) (id : Nat) (err : Bool) (h : s.mem.wf = true) :
    (inboundAck s id err).mem.wf = true := by
  unfold inboundAck
  dsimp only
  repeat' split
  all_goals simp [wf_sendBare, h]

theorem wf_takeAck (s : State) (p : BulkPacket) (err : Bool) (h : s.mem.wf = true) :
    (takeAck s p err).mem.wf = true := by
  unfold takeAck
  repeat' split
  all_goals simp [wf_inboundAck, wf_addressFault, h]

theorem wf_mirrored (s : State) (p : BulkPacket) (h : s.mem.wf = true) : (mirrored s p).mem.wf = true :=
  wf_ackBulk _ _ _ h

theorem wf_execBulkAckReceived (i : Nat) (s : State) (h : s.mem.wf = true) : Canon (execBulkAckReceived i s) := by
  unfold execBulkAckReceived
  split
  · exact h
  · split
    · exact wf_ite (wf_deliverBulk _ _ _ _ (fun t ht => (canonOpt_some _).2 (wf_takeAck t _ _ ht)) h) h
    · exact wf_ite (wf_deliverBulk _ _ _ _ (fun t ht => (canonOpt_some _).2 (wf_mirrored t _ ht)) h) h
    · exact h

theorem wf_execRateRaise (c : BitVec 8) (s : State) (h : s.mem.wf = true) : Canon (execRateRaise c s) := by
  unfold execRateRaise
  dsimp only
  repeat' split
  all_goals simp [h]

theorem wf_execTreeContributionReceived (i : Nat) (s : State) (h : s.mem.wf = true) :
    Canon (execTreeContributionReceived i s) := by
  unfold execTreeContributionReceived
  split
  · exact h
  · split
    · exact wf_ite (wf_deliverBulk _ _ _ _ (fun t ht => wf_nodeReceive t _ _ _ _ _ ht) h) h
    · exact h

theorem wf_execOrdPacketRelease (i : Nat) (s : State) (h : s.mem.wf = true) : Canon (execOrdPacketRelease i s) := by
  unfold execOrdPacketRelease
  split <;> simp [wf_releaseOrd, h]

/-! ### Machine/Backward -/

theorem wf_execGnop (k : ClusterId) (e : GSel) (s : State) (h : s.mem.wf = true) : Canon (execGnop k e s) := by
  simp [execGnop, wf_runEngine, h]

theorem wf_execGmm (k : ClusterId) (e : GSel) (s : State) (h : s.mem.wf = true) : Canon (execGmm k e s) := by
  simp +contextual [execGmm, wf_runEngine, wf_matrixMultiply, h]

theorem wf_execGload (k : ClusterId) (e : GSel) (s : State) (h : s.mem.wf = true) : Canon (execGload k e s) := by
  simp +contextual [execGload, wf_runEngine, wf_matrixLoad, h]

theorem wf_execGdrain (k : ClusterId) (e : GSel) (s : State) (h : s.mem.wf = true) : Canon (execGdrain k e s) := by
  refine (canon_next _).2 (wf_runEngine _ _ _ _ _ _ (fun t q ht => (canon_next _).2 ?_) h)
  exact wf_ite (wf_drainSlice t _ _ q _ ht) (wf_drainTile t _ _ q _ ht)

theorem wf_execGclear (k : ClusterId) (e : GSel) (s : State) (h : s.mem.wf = true) : Canon (execGclear k e s) := by
  simp +contextual [execGclear, wf_runEngine, h]

theorem wf_mergeIn (s : State) (k e : Nat) (q : QInstr) (h : s.mem.wf = true) : (mergeIn s k e q).mem.wf = true :=
  wf_guarded _ _ _ _ _ _ (fun _ ht => ht) h

theorem wf_execGmerge (k : ClusterId) (e : GSel) (s : State) (h : s.mem.wf = true) : Canon (execGmerge k e s) := by
  simp +contextual [execGmerge, wf_runEngine, wf_mergeIn, h]

theorem wf_pushTile (s : State) (k e : Nat) (q : QInstr) (h : s.mem.wf = true) :
    (pushTile s k e q).mem.wf = true := by
  unfold pushTile
  dsimp only
  repeat' split
  all_goals simp +contextual [wf_freeAddressFault, wf_guarded, wf_mashPush, h]

theorem wf_execGmpush (k : ClusterId) (e : GSel) (s : State) (h : s.mem.wf = true) : Canon (execGmpush k e s) := by
  simp +contextual [execGmpush, wf_runEngine, wf_pushTile, h]

theorem wf_popTile (s : State) (k e : Nat) (q : QInstr) (h : s.mem.wf = true) : (popTile s k e q).mem.wf = true := by
  unfold popTile
  dsimp only
  split
  · exact wf_freeAddressFault _ _ _ _ _ h
  · exact wf_guarded _ _ _ _ _ _ (fun t ht => wf_padWrites _ _ _ (wf_mashTake t _ _ _ _ ht)) h

theorem wf_execGmpop (k : ClusterId) (e : GSel) (s : State) (h : s.mem.wf = true) : Canon (execGmpop k e s) := by
  simp +contextual [execGmpop, wf_runEngine, wf_popTile, h]

theorem wf_alternate (s : State) (k e : Nat) (q : QInstr) (h : s.mem.wf = true) :
    (alternate s k e q).mem.wf = true := by
  refine wf_guarded _ _ _ _ _ _ (fun t ht => ?_) h
  dsimp only
  split
  · refine wf_guarded _ _ _ _ _ _ (fun u hu => ?_) ht
    rw [accumulateTile_mem, accumulateTile_mem]
    exact hu
  · exact wf_streamFault _ _ _ _ _ ht

theorem wf_execGalt (k : ClusterId) (e : GSel) (s : State) (h : s.mem.wf = true) : Canon (execGalt k e s) := by
  simp +contextual [execGalt, wf_runEngine, wf_alternate, h]

theorem wf_restart (s : State) (k lane : Nat) (m : Mash) (h : s.mem.wf = true) : (restart s k lane m).mem.wf = true :=
  wf_sendTransfers _ _ _ _ _ h

theorem wf_spillThere (s : State) (k lane : Nat) (m : Mash) (d : Nat) (rest : List Nat) (h : s.mem.wf = true) :
    (spillThere s k lane m d rest).mem.wf = true := by
  have hc := wf_checkPad s k (ringAddr k m lane d) (mashBytes m) h
  unfold spillThere
  dsimp only
  split
  · exact wf_dataErrorPad _ _ _ _ _ hc
  · have hw := fun a bs => wf_writeBytes _ a bs hc
    exact wf_restart _ _ _ _ (wf_ite (wf_writeCopy _ _ _ _ (hw _ _)) (hw _ _))

theorem wf_mashSpilled (s : State) (k lane : Nat) (h : s.mem.wf = true) : (mashSpilled s k lane).mem.wf = true := by
  unfold mashSpilled
  repeat' split
  · exact h
  · exact h
  · exact h
  · exact wf_deliverBulk _ _ _ _ (fun t ht => (canonOpt_some _).2 (wf_spillThere t _ _ _ _ _ ht)) h

theorem wf_fetchThere (s : State) (k lane : Nat) (m : Mash) (d : Nat) (rest : List Nat) (h : s.mem.wf = true) :
    CanonOpt (fetchThere s k lane m d rest) := by
  unfold fetchThere
  dsimp only
  split
  · simp [wf_routeFault, h]
  · simp
  · rename_i primary _
    have hc := wf_checkLines (countFallback s (homeUnit s (clusterHome s k) (homeAddr m lane d)) primary)
      (homeAddr m lane d) (mashLines m.mfmt) (by simpa using h)
    repeat' split
    · simpa using hc
    · simp
    · simp [wf_restart, wf_padWrite, hc]

theorem wf_mashFetched (s : State) (k lane : Nat) (h : s.mem.wf = true) : (mashFetched s k lane).mem.wf = true := by
  unfold mashFetched
  repeat' split
  · exact h
  · exact h
  · exact h
  · exact wf_deliverBulk _ _ _ _ (fun t ht => wf_fetchThere t _ _ _ _ _ ht) h

theorem wf_execMashSpillDone (k : ClusterId) (lane : Fin 2) (s : State) (h : s.mem.wf = true) :
    Canon (execMashSpillDone k lane s) := by
  unfold execMashSpillDone
  split <;> simp [wf_mashSpilled, h]

theorem wf_execMashPrefetchArrival (k : ClusterId) (lane : Fin 2) (s : State) (h : s.mem.wf = true) :
    Canon (execMashPrefetchArrival k lane s) := by
  unfold execMashPrefetchArrival
  split <;> simp [wf_mashFetched, h]

/-! ### Machine/Links -/

@[simp] theorem markLink_mem (s : State) (key : Nat) (st : LinkState) : (markLink s key st).mem = s.mem := by
  simp [markLink]

theorem wf_loseLink (s : State) (key : Nat) (h : s.mem.wf = true) : (loseLink s key).mem.wf = true := by
  simp [loseLink, wf_raise, h]

@[simp] theorem closeLink_mem (s : State) (key : Nat) : (closeLink s key).mem = s.mem := by
  simp [closeLink]

theorem wf_laneFails (s : State) (key lane : Nat) (h : s.mem.wf = true) : (laneFails s key lane).mem.wf = true := by
  unfold laneFails
  dsimp only
  repeat' split
  all_goals simp [wf_loseLink, h]

theorem wf_execSeamLaneFailure (d : SeamDir) (lane : Fin 68) (s : State) (h : s.mem.wf = true) :
    Canon (execSeamLaneFailure d lane s) := by
  simp [execSeamLaneFailure, wf_laneFails, h]

theorem wf_badFlit (s : State) (key : Nat) (lane : Option Nat) (h : s.mem.wf = true) :
    (badFlit s key lane).mem.wf = true := by
  unfold badFlit
  dsimp only
  repeat' split
  all_goals simp [wf_loseLink, wf_laneFails, h]

@[simp] theorem goodFlit_mem (s : State) (key fixed : Nat) (lane : Option Nat) :
    (goodFlit s key fixed lane).mem = s.mem := by
  unfold goodFlit
  dsimp only
  repeat' split
  all_goals simp

theorem wf_execSeamFlitReceived (d : SeamDir) (upsets : List (BitVec 72)) (lane : Option (Fin 68)) (s : State)
    (h : s.mem.wf = true) : Canon (execSeamFlitReceived d upsets lane s) := by
  unfold execSeamFlitReceived
  dsimp only
  repeat' split
  all_goals simp [wf_badFlit, h]

theorem wf_execLinkPauseEnd (d : SeamDir) (s : State) (h : s.mem.wf = true) : Canon (execLinkPauseEnd d s) := by
  unfold execLinkPauseEnd
  split <;> simp [h]

theorem wf_execSeamHealthUpdate (u : UnitId) (d : SeamDir) (s : State) (h : s.mem.wf = true) :
    Canon (execSeamHealthUpdate u d s) := by
  unfold execSeamHealthUpdate
  split <;> simp [h]

theorem wf_execSeamDrainComplete (d : SeamDir) (s : State) (h : s.mem.wf = true) :
    Canon (execSeamDrainComplete d s) := by
  unfold execSeamDrainComplete
  dsimp only
  split <;> simp [h]

theorem wf_execSeamDrainTimeout (d : SeamDir) (s : State) (h : s.mem.wf = true) :
    Canon (execSeamDrainTimeout d s) := by
  unfold execSeamDrainTimeout
  split <;> simp [wf_loseLink, h]

/-! ### Machine/FabricPorts -/

@[simp] theorem markSegments_mem (s : State) (gs : List (Nat × Nat)) (retired : Bool) :
    (markSegments s gs retired).mem = s.mem := by
  unfold markSegments
  split <;> rfl

theorem wf_sendHealth (s : State) (p : Nat) (retired : Bool) (h : s.mem.wf = true) :
    (sendHealth s p retired).mem.wf = true := by
  refine wf_foldl _ (fun t m ht => ?_) _ _ (by simpa using h)
  exact wf_enterRim _ _ _ (by simpa using ht)

theorem wf_retirePort (s : State) (p : Nat) (h : s.mem.wf = true) : (retirePort s p).mem.wf = true :=
  wf_sendHealth _ _ _ h

theorem wf_losePort (s : State) (p : Nat) (h : s.mem.wf = true) : (losePort s p).mem.wf = true := by
  simp [losePort, wf_retirePort, wf_raise, h]

theorem wf_closePort (s : State) (p : Nat) (h : s.mem.wf = true) : (closePort s p).mem.wf = true :=
  wf_sendHealth _ _ _ h

@[simp] theorem resendAll_mem (s : State) (p : Nat) : (resendAll s p).mem = s.mem :=
  foldl_mem _ (fun _ _ => by simp) _ _

theorem wf_portLaneFails (s : State) (p lane : Nat) (h : s.mem.wf = true) :
    (portLaneFails s p lane).mem.wf = true := by
  unfold portLaneFails
  dsimp only
  repeat' split
  all_goals simp [wf_losePort, wf_closePort, h]

theorem wf_execFabricLaneFailure (p : PortId) (lane : Fin 8) (s : State) (h : s.mem.wf = true) :
    Canon (execFabricLaneFailure p lane s) := by
  simp [execFabricLaneFailure, wf_portLaneFails, h]

theorem wf_execPortDrainComplete (p : PortId) (s : State) (h : s.mem.wf = true) :
    Canon (execPortDrainComplete p s) := by
  unfold execPortDrainComplete
  split <;> simp [wf_flushEgress, wf_retirePort, h]

theorem wf_execPortDrainTimeout (p : PortId) (s : State) (h : s.mem.wf = true) :
    Canon (execPortDrainTimeout p s) := by
  unfold execPortDrainTimeout
  split <;> simp [wf_losePort, h]

theorem wf_execFabricHealthUpdate (smod : BitVec 12) (port : PortId) (retired : Bool) (s : State)
    (h : s.mem.wf = true) : Canon (execFabricHealthUpdate smod port retired s) := by
  refine wf_flushEgress _ (wf_foldl _ (fun t p ht => ?_) _ _ (by simpa using h))
  dsimp only
  repeat' split
  · simpa using wf_retirePort t p ht
  · exact ht
  · exact ht
  · exact ht

theorem wf_badCodeword (s : State) (p : Nat) (c : Codeword) (h : s.mem.wf = true) :
    (badCodeword s p c).mem.wf = true := by
  unfold badCodeword
  dsimp only
  repeat' split
  all_goals simp [wf_losePort, wf_portLaneFails, h]

@[simp] theorem takeControl_mem (s : State) (p : Nat) (c : Codeword) : (takeControl s p c).mem = s.mem := by
  unfold takeControl
  dsimp only
  split <;> simp

@[simp] theorem judgeXoff_mem (s : State) (p : Nat) : (judgeXoff s p).mem = s.mem := rfl

@[simp] theorem takeData_mem (s : State) (p : Nat) (c : Codeword) : (takeData s p c).mem = s.mem := by
  unfold takeData
  dsimp only
  repeat' split
  all_goals simp

theorem wf_execFabricCodewordReceived (p : PortId) (c : Codeword) (s : State) (h : s.mem.wf = true) :
    Canon (execFabricCodewordReceived p c s) := by
  unfold execFabricCodewordReceived
  dsimp only
  repeat' split
  all_goals simp [wf_badCodeword, wf_flushEgress, h]

@[simp] theorem discardPacket_mem (s : State) (p : Nat) : (discardPacket s p).mem = s.mem := rfl

@[simp] theorem addInbound_mem (s : State) (p : Nat) (h : BitVec 128) (left : Nat) :
    (addInbound s p h left).2.mem = s.mem := rfl

theorem wf_takeWrite (s : State) (p : Nat) (k : FabPacket) (merge : Bool) (h : s.mem.wf = true) :
    (takeWrite s p k merge).mem.wf = true := by
  unfold takeWrite
  dsimp only
  split
  · exact wf_foldl _ (fun t part ht => wf_sendBulk t _ _ _ _ ht) _ _ (by simpa using h)
  · exact wf_sendBare _ _ h

theorem wf_takeContribution (s : State) (p : Nat) (k : FabPacket) (h : s.mem.wf = true) :
    (takeContribution s p k).mem.wf = true := by
  unfold takeContribution
  dsimp only
  repeat' split
  · exact wf_sendBare _ _ h
  · simpa using h
  · simpa using h
  · exact wf_foldl _ (fun t l ht => wf_sendBulk t _ _ _ _ ht) _ _ (by simpa using h)

@[simp] theorem takeEcho_mem (s : State) (c : Nat) (t : Time) : (takeEcho s c t).mem = s.mem := by
  unfold takeEcho
  dsimp only
  split <;> rfl

@[simp] theorem farMergeFlags_mem (s : State) (acks : List (Nat × Nat × Nat)) : (farMergeFlags s acks).mem = s.mem :=
  foldl_mem _ (fun _ _ => by split <;> simp) _ _

theorem wf_takeFabAck (s : State) (p : Nat) (k : FabPacket) (t : Time) (h : s.mem.wf = true) :
    (takeFabAck s p k t).mem.wf = true := by
  unfold takeFabAck
  dsimp only
  repeat' split
  all_goals simp [wf_ackAll, wf_addressFault, h]

theorem wf_takeSync (s : State) (p : Nat) (k : FabPacket) (h : s.mem.wf = true) : (takeSync s p k).mem.wf = true := by
  unfold takeSync
  dsimp only
  repeat' split
  all_goals simp [wf_sendBare, wf_sendSync, h]

theorem wf_acceptPacket (s : State) (p : Nat) (t : Time) (k : FabPacket) (h : s.mem.wf = true) :
    (acceptPacket s p t k).mem.wf = true := by
  unfold acceptPacket
  split <;> simp [wf_takeWrite, wf_takeContribution, wf_takeFabAck, wf_takeSync, h]

theorem wf_passOn (s : State) (p : Nat) (x : Nat × FabPacket) (h : s.mem.wf = true) :
    (passOn s p x).mem.wf = true := by
  unfold passOn
  split <;> simp [wf_enqueue, wf_crossPanel, h]

theorem wf_tagPacket (s : State) (p : Nat) (t : Time) (k : FabPacket) (h : s.mem.wf = true) :
    (tagPacket s p t k).mem.wf = true := by
  unfold tagPacket
  dsimp only
  repeat' split
  all_goals simp [wf_acceptPacket, wf_raise, h]

theorem wf_takePacket (s : State) (p : Nat) (t : Time) (k : FabPacket) (h : s.mem.wf = true) :
    (takePacket s p t k).mem.wf = true := by
  unfold takePacket
  dsimp only
  repeat' split
  all_goals simp [wf_tagPacket, wf_passOn, h]

theorem arrive_mem (s t : State) (p : Nat) (k : FabPacket) (ht : arrive s p k = some t) : t.mem = s.mem := by
  unfold arrive at ht
  dsimp only at ht
  split at ht
  · cases ht
  · split at ht
    · cases ht
    · cases ht
      split <;> simp

theorem wf_forwardMgmt (s : State) (p : Nat) (k : FabPacket) (h : s.mem.wf = true) :
    (forwardMgmt s p k).mem.wf = true := by
  unfold forwardMgmt
  split <;> simp [wf_enqueue, h]

theorem wf_execFabricPacketReceived (p : PortId) (t : Time) (k : FabPacket) (s : State) (h : s.mem.wf = true) :
    Canon (execFabricPacketReceived p t k s) := by
  unfold execFabricPacketReceived
  split
  · exact h
  · split
    · exact h
    · rename_i u hu
      simp [wf_takePacket, arrive_mem s u p.val k hu, h]

theorem wf_acceptHeld (s : State) (h : s.mem.wf = true) : (acceptHeld s).mem.wf = true :=
  wf_foldl _ (fun t x ht => by simpa using ht) _ _ (wf_foldl _ (fun t x ht => wf_acceptPacket t _ _ _ ht) _ _ h)

/-! ### Machine/Serving -/

@[simp] theorem modRequest_mem (s : State) (k : RequestKey) (f : Request → Request) :
    (modRequest s k f).mem = s.mem := rfl

@[simp] theorem dropRequest_mem (s : State) (k : RequestKey) : (dropRequest s k).mem = s.mem := rfl

@[simp] theorem reply_mem (s : State) (r : Request) (type : Nat) (body : List Byte) :
    (reply s r type body).mem = s.mem := rfl

@[simp] theorem endNow_mem (s : State) (k : RequestKey) : (endNow s k).mem = s.mem := rfl

@[simp] theorem sendDone_mem (s : State) (r : Request) (reason : Nat) : (sendDone s r reason).mem = s.mem := rfl

@[simp] theorem sendReject_mem (s : State) (r : Request) (reason : Nat) : (sendReject s r reason).mem = s.mem := rfl

@[simp] theorem learnHop_mem (s : State) (d : Datagram) : (learnHop s d).mem = s.mem := rfl

@[simp] theorem countDiscard_mem (s : State) : (countDiscard s).mem = s.mem := rfl

theorem wf_takeDatagram (s : State) (d : Datagram) (type : Nat) (act : State → Message → State)
    (ha : ∀ t m, (act t m).mem = t.mem) (h : s.mem.wf = true) : (takeDatagram s d type act).mem.wf = true := by
  unfold takeDatagram
  repeat' split
  all_goals simp [ha, h]

@[simp] theorem newSubmit_mem (s : State) (m : Message) : (newSubmit s m).mem = s.mem := by
  unfold newSubmit
  dsimp only
  repeat' split
  all_goals simp

@[simp] theorem takeSubmit_mem (t : Time) (s : State) (m : Message) : (takeSubmit t s m).mem = s.mem := by
  unfold takeSubmit
  repeat' split
  all_goals simp

@[simp] theorem takePrompt_mem (s : State) (m : Message) : (takePrompt s m).mem = s.mem := by
  unfold takePrompt
  dsimp only
  repeat' split
  all_goals simp

@[simp] theorem takeTokenAck_mem (s : State) (m : Message) : (takeTokenAck s m).mem = s.mem := by
  unfold takeTokenAck
  dsimp only
  repeat' split
  all_goals simp

@[simp] theorem takeCancel_mem (s : State) (m : Message) : (takeCancel s m).mem = s.mem := rfl

theorem wf_execSubmit (d : Datagram) (t : Time) (s : State) (h : s.mem.wf = true) : Canon (execSubmit d t s) := by
  simp [execSubmit, wf_takeDatagram, h]

theorem wf_execPrompt (d : Datagram) (s : State) (h : s.mem.wf = true) : Canon (execPrompt d s) := by
  simp [execPrompt, wf_takeDatagram, h]

theorem wf_execAck (d : Datagram) (s : State) (h : s.mem.wf = true) : Canon (execAck d s) := by
  simp [execAck, wf_takeDatagram, h]

theorem wf_execCancel (d : Datagram) (s : State) (h : s.mem.wf = true) : Canon (execCancel d s) :=
  wf_takeDatagram _ _ _ _ takeCancel_mem h

theorem wf_execTokensResend (k : RequestKey) (s : State) (h : s.mem.wf = true) : Canon (execTokensResend k s) := by
  unfold execTokensResend
  dsimp only
  repeat' split
  · exact h
  · exact h
  · rw [canon_next, modRequest_mem, foldl_mem _ (fun _ _ => sendMsg_mem _ _ _ _ _ _)]
    exact h
  · simpa using h
  · exact h

theorem wf_execPromptTimeout (k : RequestKey) (s : State) (h : s.mem.wf = true) : Canon (execPromptTimeout k s) := by
  unfold execPromptTimeout
  repeat' split
  all_goals simp [h]

theorem wf_execQueueWaitExpiry (k : RequestKey) (s : State) (h : s.mem.wf = true) :
    Canon (execQueueWaitExpiry k s) := by
  unfold execQueueWaitExpiry
  repeat' split
  all_goals simp [h]

theorem wf_svcWrite (s : State) (n a : Nat) (bs : List Byte) (h : s.mem.wf = true) :
    (svcWrite s n a bs).mem.wf = true :=
  wf_foldl _ (fun t _ ht => wf_sendBulk t _ _ _ _ ht) _ _ h

@[simp] theorem admitQueue_mem (pl : ServingPlan) (ph : Nat) (rs : List Request) (s : State) :
    (admitQueue pl ph rs s).mem = s.mem := by
  induction rs generalizing s with
  | nil => rfl
  | cons r rs ih =>
    unfold admitQueue
    dsimp only
    repeat' split
    all_goals simp [ih]

theorem wf_writeEntry (pl : ServingPlan) (ph : Nat) (s : State) (i : Nat) (h : s.mem.wf = true) :
    (writeEntry pl ph s i).mem.wf = true := by
  unfold writeEntry
  dsimp only
  repeat' split
  all_goals simp [wf_svcWrite, h]

theorem wf_execBatchAdmission (s : State) (h : s.mem.wf = true) : Canon (execBatchAdmission s) := by
  unfold execBatchAdmission
  split
  · exact h
  · split
    · exact wf_foldl _ (fun t i ht => wf_writeEntry _ _ t i ht) _ _ (by simpa using h)
    · exact h

theorem wf_copyPage (s : State) (n src dst : Nat) (h : s.mem.wf = true) : (copyPage s n src dst).mem.wf = true :=
  wf_svcWrite _ _ _ _ h

theorem wf_bringIn (s : State) (pl : ServingPlan) (i p : Nat) (h : s.mem.wf = true) :
    (bringIn s pl i p).mem.wf = true := by
  unfold bringIn
  dsimp only
  repeat' split
  all_goals simp [wf_copyPage, wf_svcWrite, h]

theorem wf_execPageIn (slot : Nat) (page : Fin 256) (s : State) (h : s.mem.wf = true) :
    Canon (execPageIn slot page s) := by
  unfold execPageIn
  repeat' split
  all_goals simp [wf_bringIn, h]

theorem wf_takeOut (s : State) (pl : ServingPlan) (i p : Nat) (h : s.mem.wf = true) :
    (takeOut s pl i p).mem.wf = true := by
  unfold takeOut
  dsimp only
  repeat' split
  all_goals simp [wf_copyPage, wf_svcWrite, h]

theorem wf_execPageOut (slot : Nat) (page : Fin 256) (s : State) (h : s.mem.wf = true) :
    Canon (execPageOut slot page s) := by
  unfold execPageOut
  repeat' split
  all_goals simp [wf_takeOut, h]

theorem wf_takeToken (s : State) (pl : ServingPlan) (i : Nat) (r : Request) (t : Word) (h : s.mem.wf = true) :
    (takeToken s pl i r t).mem.wf = true := wf_svcWrite _ _ _ _ h

theorem wf_execSampleToken (slot : Nat) (s : State) (h : s.mem.wf = true) : Canon (execSampleToken slot s) := by
  unfold execSampleToken
  dsimp only
  repeat' split
  all_goals simp [wf_takeToken, h]

theorem wf_execServiceCutoff (s : State) (h : s.mem.wf = true) : Canon (execServiceCutoff s) := by
  unfold execServiceCutoff
  split <;> simp [h]

@[simp] theorem commitRequest_mem (s : State) (k : RequestKey) : (commitRequest s k).mem = s.mem := by
  unfold commitRequest
  dsimp only
  repeat' split
  all_goals simp

@[simp] theorem advanceSlots_mem (s : State) (ph : Nat) : (advanceSlots s ph).mem = s.mem :=
  foldl_mem _ (fun _ _ => by split <;> simp) _ _

@[simp] theorem saveService_mem (s : State) : (saveService s).mem = s.mem := rfl

@[simp] theorem serviceCommit_mem (s : State) (ph : Nat) : (serviceCommit s ph).mem = s.mem := by
  unfold serviceCommit
  split
  · rfl
  · exact (foldl_mem _ commitRequest_mem _ _).trans (advanceSlots_mem s ph)

@[simp] theorem startService_mem (s : State) : (startService s).mem = s.mem := by
  unfold startService
  split <;> rfl

theorem wf_takeIcmp (s : State) (p : Nat) (ip : Ip6In) (act : State → State) (ha : ∀ t, (act t).mem = t.mem)
    (h : s.mem.wf = true) : (takeIcmp s p ip act).mem.wf = true := by
  unfold takeIcmp
  repeat' split
  all_goals simp [ha, h]

theorem wf_execNeighbourSolicitation (port : PortId) (ip : Ip6In) (mac : BitVec 48) (target : BitVec 128) (s : State)
    (h : s.mem.wf = true) : Canon (execNeighbourSolicitation port ip mac target s) :=
  wf_takeIcmp _ _ _ _ (fun t => by split <;> rfl) h

theorem wf_execEchoRequest (port : PortId) (ip : Ip6In) (mac : BitVec 48) (data : List Byte) (s : State)
    (h : s.mem.wf = true) : Canon (execEchoRequest port ip mac data s) := by
  simp [execEchoRequest, wf_takeIcmp, h]

theorem wf_execEthernetLinkDown (p : PortId) (s : State) (h : s.mem.wf = true) :
    Canon (execEthernetLinkDown p s) := by
  unfold execEthernetLinkDown
  split <;> simp [h]

theorem wf_execEthernetLinkUp (p : PortId) (s : State) (h : s.mem.wf = true) : Canon (execEthernetLinkUp p s) := by
  unfold execEthernetLinkUp
  split <;> simp [h]

theorem wf_execDiscardedDatagram (p : PortId) (reason : DiscardReason) (s : State) (h : s.mem.wf = true) :
    Canon (execDiscardedDatagram p reason s) := by
  unfold execDiscardedDatagram
  repeat' split
  all_goals simp [wf_takeDatagram, h]

/-! ### Machine/Descriptor -/

@[simp] theorem spareStacks_mem (s : State) : (spareStacks s).mem = s.mem :=
  (foldl_mem _ (fun _ _ => modStack_mem _ _ _) _ _).trans (foldl_mem _ (fun _ _ => modStack_mem _ _ _) _ _)

/-! ### Machine/Estimate -/

@[simp] theorem meterAll_mem (s : State) (xs : List (Nat × MeterKind × Int)) : (meterAll s xs).mem = s.mem := rfl

/-! ### Machine/Power -/

@[simp] theorem switchClock_mem (s : State) : (switchClock s).mem = s.mem := by
  unfold switchClock
  repeat' split
  all_goals simp

@[simp] theorem planSwitch_mem (s : State) : (planSwitch s).mem = s.mem := rfl

theorem wf_execVcoreRampDone (n : Site) (s : State) (h : s.mem.wf = true) : Canon (execVcoreRampDone n s) := by
  simp [execVcoreRampDone, h]

@[simp] theorem beginCeiling_mem (s : State) : (beginCeiling s).mem = s.mem := rfl

@[simp] theorem deliverHints_mem (s : State) : (deliverHints s).mem = s.mem := rfl

@[simp] theorem forecastPeak_mem (s : State) : (forecastPeak s).mem = s.mem := rfl

@[simp] theorem readSite_mem (s : State) (r : SiteReading) : (readSite s r).mem = s.mem := rfl

@[simp] theorem readRim_mem (s : State) (r : RimReading) : (readRim s r).mem = s.mem := rfl

@[simp] theorem countActivity_mem (s : State) (a : ClusterActivity) : (countActivity s a).mem = s.mem := by
  unfold countActivity
  split <;> rfl

@[simp] theorem meterSite_mem (c : ControlInputs) (s : State) (r : SiteReading) : (meterSite c s r).mem = s.mem := rfl

@[simp] theorem meterModule_mem (s : State) (c : ControlInputs) : (meterModule s c).mem = s.mem := rfl

@[simp] theorem meterCluster_mem (c : ControlInputs) (s : State) (a : ClusterActivity) :
    (meterCluster c s a).mem = s.mem := by
  unfold meterCluster
  split <;> rfl

@[simp] theorem takeMeters_mem (s : State) (c : ControlInputs) : (takeMeters s c).mem = s.mem := by
  rw [takeMeters, foldl_mem _ (fun _ _ => meterCluster_mem _ _ _), foldl_mem _ (fun _ _ => meterSite_mem _ _ _),
    meterModule_mem]

@[simp] theorem takeReadings_mem (s : State) (c : ControlInputs) : (takeReadings s c).mem = s.mem := by
  show (c.rims.foldl readRim (c.sites.foldl readSite (c.clusters.foldl countActivity s))).mem = s.mem
  rw [foldl_mem _ readRim_mem, foldl_mem _ readSite_mem, foldl_mem _ countActivity_mem]

@[simp] theorem takeBudget_mem (s : State) : (takeBudget s).mem = s.mem := rfl

@[simp] theorem applyRates_mem (s : State) (ls : List Limit) : (applyRates s ls).mem = s.mem := by
  simp [applyRates]

theorem wf_execControlStep (c : ControlInputs) (s : State) (h : s.mem.wf = true) : Canon (execControlStep c s) := by
  simp [execControlStep, h]

theorem wf_execDroopTrip (n : Site) (level : Fin 2) (relock : Bool) (s : State) (h : s.mem.wf = true) :
    Canon (execDroopTrip n level relock s) := by
  unfold execDroopTrip
  dsimp only
  split <;> simp [h]

theorem wf_execDroopHoldExpiry (n : Site) (s : State) (h : s.mem.wf = true) : Canon (execDroopHoldExpiry n s) := by
  simp [execDroopHoldExpiry, h]

@[simp] theorem calibrateRail_mem (c : CalibrationInputs) (s : State) (r : RailWindow) :
    (calibrateRail c s r).mem = s.mem := by
  unfold calibrateRail
  repeat' split
  all_goals simp

@[simp] theorem watchAll_mem (c : CalibrationInputs) (s : State) : (watchAll c s).mem = s.mem :=
  foldl_mem _ (fun _ _ => by split <;> simp) _ _

@[simp] theorem judgeEvent_mem (s : State) : (judgeEvent s).mem = s.mem := by
  unfold judgeEvent
  dsimp only
  repeat' split
  all_goals simp

@[simp] theorem correctEstimate_mem (s : State) : (correctEstimate s).mem = s.mem := rfl

theorem wf_execCalibrationWindow (c : CalibrationInputs) (s : State) (h : s.mem.wf = true) :
    Canon (execCalibrationWindow c s) := by
  have hs : (c.rails.foldl (calibrateRail c) (watchAll c (correctEstimate s))).mem = s.mem := by
    rw [foldl_mem _ (calibrateRail_mem c), watchAll_mem, correctEstimate_mem]
  unfold execCalibrationWindow
  dsimp only
  split <;> simp [hs, h]

@[simp] theorem meanWindow_mem (s : State) (uj : Nat) : (meanWindow s uj).mem = s.mem := by
  unfold meanWindow
  dsimp only
  split <;> rfl

theorem wf_execEnergyIntegration (north south : Nat) (s : State) (h : s.mem.wf = true) :
    Canon (execEnergyIntegration north south s) := by
  simp [execEnergyIntegration, h]

theorem wf_execLifetimeEnergySave (s : State) (h : s.mem.wf = true) : Canon (execLifetimeEnergySave s) := by
  simp [execLifetimeEnergySave, h]

theorem wf_execLowFlowWarning (flow : Nat) (s : State) (h : s.mem.wf = true) : Canon (execLowFlowWarning flow s) := by
  unfold execLowFlowWarning
  split <;> simp [h]

theorem wf_execInletAbove45C (tenths : Int) (s : State) (h : s.mem.wf = true) :
    Canon (execInletAbove45C tenths s) := by
  unfold execInletAbove45C
  split <;> simp [h]

theorem wf_execBudgetTimeout (s : State) (h : s.mem.wf = true) : Canon (execBudgetTimeout s) := by
  unfold execBudgetTimeout
  split <;> simp [h]

@[simp] theorem setReady_mem (s : State) (b : Nat) : (setReady s b).mem = s.mem := rfl

@[simp] theorem clearReady_mem (s : State) (b : Nat) : (clearReady s b).mem = s.mem := rfl

@[simp] theorem dropLinks_mem (s : State) (h : Half) : (dropLinks s h).mem = s.mem :=
  foldl_mem _ (fun _ _ => by split <;> simp) _ _

theorem wf_execProtectiveTrip (d : Half) (cause : TripCause) (s : State) (h : s.mem.wf = true) :
    Canon (execProtectiveTrip d cause s) := by
  unfold execProtectiveTrip
  dsimp only
  rw [canon_next, clearReady_mem, dropLinks_mem]
  exact wf_spoilHalf _ d (wf_dropCaches _ (wf_raise _ _ _ _ _ _ _ h))

/-! ### Machine/Staged -/

@[simp] theorem retimeTick_mem (s : State) : (retimeTick s).mem = s.mem := rfl

@[simp] theorem remodePorts_mem (s : State) (old : Word) : (remodePorts s old).mem = s.mem := rfl

@[simp] theorem takeEffect_mem (s : State) (r : StagedRec) : (takeEffect s r).mem = s.mem := by
  unfold takeEffect
  split <;> rfl

@[simp] theorem commitNow_mem (s : State) (r : StagedRec) : (commitNow s r).mem = s.mem := by
  unfold commitNow
  dsimp only
  repeat' split
  all_goals simp

@[simp] theorem commitPending_mem (s : State) (r : StagedRec) (t : Option Time) :
    (commitPending s r t).mem = s.mem := by
  unfold commitPending
  dsimp only
  split <;> rfl

@[simp] theorem tickRecord_mem (s : State) (r : StagedRec) : (tickRecord s r).mem = s.mem := by
  unfold tickRecord
  dsimp only
  repeat' split
  all_goals simp

@[simp] theorem tickRecords_mem (s : State) : (tickRecords s).mem = s.mem := foldl_mem _ (fun _ _ => by simp) _ _

@[simp] theorem clearLate_mem (s : State) : (clearLate s).mem = s.mem := rfl

/-! ### Machine/Jobs -/

@[simp] theorem done_fst (s : State) : (done s).1 = s := rfl

@[simp] theorem refuse_fst (s : State) (c : Word) : (refuse s c).1 = s := rfl

@[simp] theorem assignNumbers_mem (s : State) : (assignNumbers s).mem = s.mem := by
  unfold assignNumbers
  dsimp only
  rw [foldl_mem _ (fun _ _ => setSiteLinks_mem _ _ _), modSites_mem]

@[simp] theorem clearCounters_mem (s : State) : (clearCounters s).mem = s.mem := rfl

theorem wf_launchJob (s : State) (p : Party) (service : Bool) (d : List Byte) (h : s.mem.wf = true) :
    (launchJob s p service d).mem.wf = true := by
  have hc : (clearCounters (assignNumbers (spareStacks s))).mem.wf = true := by simpa using h
  unfold launchJob
  dsimp only
  generalize clearCounters (assignNumbers (spareStacks s)) = t at hc
  refine wf_preload _ _ (wf_dropScratch _ ?_)
  exact (Memory.wf_iff _).2 ⟨((Memory.wf_iff _).1 (wf_dropCopies (wf_dropCaches t hc))).1, rfl⟩

@[simp] theorem refuseStart_mem (s : State) (reason item : Nat) : (refuseStart s reason item).1.mem = s.mem := rfl

theorem wf_startJob (s : State) (p : Party) (service : Bool) (h : s.mem.wf = true) :
    (startJob s p service).1.mem.wf = true := by
  unfold startJob
  extract_lets job s1 d t u job2
  have h1 : s1.mem.wf = true := h
  have hu : u.mem.wf = true := wf_launchJob _ _ _ _ h1
  clear_value s1 d t u
  cases stateReason s1 service with
  | some r => simpa using h1
  | none =>
    cases layoutBad d service with
    | some i => simpa using h1
    | none =>
      cases descriptorBad t d t.topo.chiplets with
      | some x => simpa using h1
      | none => exact hu

@[simp] theorem endAtCommit_mem (s : State) : (endAtCommit s).1.mem = s.mem := by
  unfold endAtCommit
  split <;> rfl

theorem wf_endJobNow (s : State) (h : s.mem.wf = true) : (endJobNow s).1.mem.wf = true := by
  unfold endJobNow
  split <;> simp [wf_endJobSpoilt, h]

theorem wf_putControl (s : State) (p : Party) (code : Nat) (h : s.mem.wf = true) :
    (putControl s p code).1.mem.wf = true := by
  unfold putControl
  dsimp only
  repeat' split
  all_goals simp [wf_startJob, wf_endJobNow, h]

theorem wf_putSvcControl (s : State) (p : Party) (code : Nat) (h : s.mem.wf = true) :
    (putSvcControl s p code).1.mem.wf = true := by
  unfold putSvcControl
  dsimp only
  repeat' split
  all_goals simp [wf_startJob, h]

theorem wf_putOwnership (s : State) (p : Party) (code : Nat) (h : s.mem.wf = true) :
    (putOwnership s p code).1.mem.wf = true := by
  unfold putOwnership
  repeat' split
  all_goals simp [wf_revokeJob, h]

theorem wf_writeWindow (s : State) (bs : List Byte) (h : s.mem.wf = true) : (writeWindow s bs).1.mem.wf = true := by
  unfold writeWindow
  split <;> simp [wf_storePlain, h]

theorem wf_readWindow (s : State) (off n : Nat) (h : s.mem.wf = true) : (readWindow s off n).1.mem.wf = true := by
  unfold readWindow
  dsimp only
  repeat' split
  all_goals simp [wf_fixStack, h]

theorem wf_execJobStartCopiesDone (f : Option CopyFault) (s : State) (h : s.mem.wf = true) :
    Canon (execJobStartCopiesDone f s) := by
  unfold execJobStartCopiesDone
  repeat' split
  all_goals simp [wf_copyCarry, wf_raise, h]

@[simp] theorem putNumericFlags_mem (s : State) (k v : Nat) : (putNumericFlags s k v).1.mem = s.mem := by
  unfold putNumericFlags
  repeat' split
  all_goals simp

@[simp] theorem putDiag_mem (s : State) (k : Nat) (w : DWord) : (putDiag s k w).1.mem = s.mem := by
  unfold putDiag
  dsimp only
  repeat' split
  all_goals simp

/-! ### Machine/Objects -/

@[simp] theorem readEffect_mem (s : State) (i sub : Nat) : (readEffect s i sub).mem = s.mem := by
  unfold readEffect
  repeat' split
  all_goals simp

/-! ### Machine/Images -/

@[simp] theorem verifyFailed_mem (s : State) (stage check : Nat) : (verifyFailed s stage check).mem = s.mem := rfl

@[simp] theorem setBank_mem (s : State) (h : Half) (b : Nat) (x : Bank) : (setBank s h b x).mem = s.mem := by
  unfold setBank
  split <;> rfl

@[simp] theorem setSpareBanks_mem (s : State) (x : Bank) : (setSpareBanks s x).mem = s.mem := by
  simp [setSpareBanks]

@[simp] theorem putUpload_mem (s : State) (d : Half) (bs : List Byte) : (putUpload s d bs).1.mem = s.mem := by
  unfold putUpload
  dsimp only
  repeat' split
  all_goals simp

@[simp] theorem putClear_mem (s : State) (b : List Byte) : (putClear s b).1.mem = s.mem := by
  unfold putClear
  repeat' split
  all_goals simp

@[simp] theorem setAttest_mem (s : State) (h : Half) (a : Attest) : (setAttest s h a).mem = s.mem := by
  unfold setAttest
  split <;> rfl

@[simp] theorem putChallenge_mem (s : State) (d : Half) (nonce : List Byte) :
    (putChallenge s d nonce).1.mem = s.mem := by
  unfold putChallenge
  dsimp only
  repeat' split
  all_goals simp

theorem wf_execAttestationReportReady (d : Half) (s : State) (h : s.mem.wf = true) :
    Canon (execAttestationReportReady d s) := by
  unfold execAttestationReportReady
  dsimp only
  split <;> simp [h]

/-! ### Machine/StartUp -/

theorem wf_loseMemory (s : State) (h : s.mem.wf = true) : (loseMemory s).mem.wf = true := by
  simp [loseMemory, wf_spoilHalf, h]

theorem wf_coldState (s : State) (h : s.mem.wf = true) : (coldState s).mem.wf = true := h

theorem wf_execLossOfInput (s : State) (h : s.mem.wf = true) : Canon (execLossOfInput s) :=
  wf_loseMemory _ ((Memory.wf_iff _).2 ⟨((Memory.wf_iff _).1 h).1, rfl⟩)

@[simp] theorem takeNode_mem (s : State) (h : Half) : (takeNode s h).mem = s.mem := by
  unfold takeNode
  split <;> rfl

@[simp] theorem setNmt_mem (s : State) (h : Half) (x : NmtState) : (setNmt s h x).mem = s.mem := by
  unfold setNmt
  split <;> rfl

@[simp] theorem setBoot_mem (s : State) (h : Half) (b : BootState) : (setBoot s h b).mem = s.mem := by
  unfold setBoot
  split <;> rfl

@[simp] theorem setRunningBank_mem (s : State) (h : Half) (b : Nat) : (setRunningBank s h b).mem = s.mem := by
  unfold setRunningBank
  split <;> rfl

@[simp] theorem runRom_mem (s : State) (h : Half) : (runRom s h).mem = s.mem := by
  simp [runRom]

@[simp] theorem runBank_mem (s : State) (h : Half) (b : Nat) (x : ImageSet) : (runBank s h b x).mem = s.mem := by
  unfold runBank
  dsimp only
  repeat' split
  all_goals simp

@[simp] theorem bootHalf_mem (s : State) (h : Half) : (bootHalf s h).mem = s.mem := by
  unfold bootHalf
  dsimp only
  repeat' split
  all_goals simp

theorem wf_execPowerGood (d : Half) (t : Time) (s : State) (h : s.mem.wf = true) : Canon (execPowerGood d t s) := by
  unfold execPowerGood
  split <;> simp [h]

@[simp] theorem setBootBank_mem (s : State) (h : Half) (b : Nat) : (setBootBank s h b).mem = s.mem := by
  unfold setBootBank
  split <;> rfl

@[simp] theorem agreeSets_mem (s : State) : (agreeSets s).mem = s.mem := by
  unfold agreeSets
  dsimp only
  repeat' split
  all_goals simp

@[simp] theorem agreeDefects_mem (s : State) (unread : List Half) : (agreeDefects s unread).mem = s.mem := by
  simp [agreeDefects]

@[simp] theorem agreeCrown_mem (s : State) : (agreeCrown s).mem = s.mem := rfl

@[simp] theorem foundDefect_mem (s : State) (kind origin unit detail : Nat) :
    (foundDefect s kind origin unit detail).mem = s.mem := by
  unfold foundDefect
  split <;> simp

@[simp] theorem trainLink_mem (origin : Nat) (fresh : List Nat) (s : State) (key : Nat) :
    (trainLink origin fresh s key).mem = s.mem := by
  unfold trainLink
  extract_lets u d old known new all s1 st s2
  have h1 : s1.mem = s.mem := foldl_mem _ (fun _ _ => foundDefect_mem _ _ _ _ _) _ _
  have h2 : s2.mem = s.mem := (modLink_mem _ _ _).trans h1
  clear_value s2
  repeat' split
  all_goals simp [h2]

@[simp] theorem trainSeams_mem (s : State) (lanes : List LaneFail) (d : Half → Bool) :
    (trainSeams s lanes d).mem = s.mem := by
  refine (foldl_mem _ (fun t key => ?_) _ _).trans
    (foldl_mem _ (fun t key => trainLink_mem _ _ t key) (trainedDirs d) s)
  split <;> simp

@[simp] theorem resetPort_mem (r : TrainingReport) (s : State) (p : Nat) : (resetPort r s p).mem = s.mem := by
  unfold resetPort
  dsimp only
  repeat' split
  all_goals simp

@[simp] theorem portsReady_mem (s : State) : (portsReady s).mem = s.mem := by
  unfold portsReady
  split <;> rfl

@[simp] theorem trainStacks_mem (s : State) (r : TrainingReport) (d : Half → Bool) :
    (trainStacks s r d).mem = s.mem := by
  rw [trainStacks, setReady_mem]
  refine (foldl_mem _ (fun t n => modStack_mem _ _ _) _ _).trans ?_
  rw [foldl_mem _ (fun _ _ => foundDefect_mem _ _ _ _ _), foldl_mem _ (fun _ _ => foundDefect_mem _ _ _ _ _)]

@[simp] theorem stepTraining_mem (s : State) (r : TrainingReport) (d : Half → Bool) :
    (stepTraining s r d).mem = s.mem := by
  have hfail : ∀ (xs : List RimId) (t : State),
      (xs.foldl (fun a _ => verifyFailed (verifyFailed a 3 1) 3 1) t).mem = t.mem :=
    fun xs t => foldl_mem (fun a _ => verifyFailed (verifyFailed a 3 1) 3 1) (fun _ _ => rfl) xs t
  unfold stepTraining
  dsimp only
  rw [portsReady_mem, trainStacks_mem, foldl_mem _ (resetPort_mem r)]
  split
  · rw [hfail, setReady_mem, trainSeams_mem, modSites_mem, setReady_mem]
  · rw [setReady_mem, hfail, setReady_mem, trainSeams_mem, modSites_mem, setReady_mem]

@[simp] theorem admitDies_mem (s : State) : (admitDies s).mem = s.mem := rfl

theorem wf_stepTest (s : State) (d : Half → Bool) (h : s.mem.wf = true) : (stepTest s d).mem.wf = true :=
  wf_losePads _ (by simpa using h)

@[simp] theorem startTick_mem (s : State) : (startTick s).mem = s.mem := by
  unfold startTick
  split <;> rfl

@[simp] theorem stepDefects_mem (s : State) : (stepDefects s).mem = s.mem := by
  have hspare : ∀ (c : Bool) (t : State), (if c then t else spareStacks t).mem = t.mem := by
    intro c t
    split <;> simp
  unfold stepDefects
  dsimp only
  rw [startTick_mem, setReady_mem, setReady_mem, hspare, modSites_mem]
  exact writeDefects_mem _ _

@[simp] theorem stepBroadcast_mem (s : State) : (stepBroadcast s).mem = s.mem := by
  simp [stepBroadcast]

@[simp] theorem raiseSvn_mem (s : State) : (raiseSvn s).mem = s.mem := by
  unfold raiseSvn
  repeat' split
  all_goals simp

@[simp] theorem stepService_mem (s : State) : (stepService s).mem = s.mem := by
  unfold stepService
  repeat' split
  all_goals simp

@[simp] theorem endBroadcast_mem (s : State) : (endBroadcast s).mem = s.mem := by
  unfold endBroadcast
  dsimp only
  repeat' split
  all_goals simp

@[simp] theorem afterTest_mem (s : State) : (afterTest s).mem = s.mem := by
  unfold afterTest
  split <;> simp

theorem wf_execStartUpAgreement (t : Time) (r : TrainingReport) (s : State) (h : s.mem.wf = true) :
    Canon (execStartUpAgreement t r s) := by
  unfold execStartUpAgreement
  extract_lets svc s1 s2 s3 su pw s4 half u pw2
  have h1 : s1.mem.wf = true := h
  have h2 : s2.mem.wf = true := by simpa [s2] using h1
  have h4 : s4.mem.wf = true := by simpa [s4, s3] using h2
  have hu : u.mem.wf = true := wf_stepTest _ _ (by simpa using h1)
  clear_value s1 s2 s3 s4 u
  split
  · split
    · rw [canon_next, afterTest_mem]
      exact wf_stepTest _ _ (by simpa using h4)
    · exact h2
  · split
    · rw [canon_next, afterTest_mem]
      exact hu
    · exact h1

theorem wf_execSelfTestComplete (n : Site) (failures : List TestFailure) (s : State) (h : s.mem.wf = true) :
    Canon (execSelfTestComplete n failures s) := by
  unfold execSelfTestComplete
  split
  · rw [canon_next, afterTest_mem]
    exact wf_foldl _ (fun t f ht => by simpa using ht) _ _ h
  · exact h

@[simp] theorem modReceiver_mem (s : State) (k : Nat) (f : Receiver → Receiver) : (modReceiver s k f).mem = s.mem :=
  rfl

@[simp] theorem noteReceivers_mem (s : State) (n : Nat) : (noteReceivers s n).mem = s.mem := rfl

@[simp] theorem checkImage_mem (s : State) (k : Nat) (e : ImageEntry) : (checkImage s k e).mem = s.mem := by
  unfold checkImage
  dsimp only
  repeat' split
  all_goals simp

theorem wf_execFirmwareChunkReceived (n : Site) (l : Fin 8) (c : Chunk) (s : State) (h : s.mem.wf = true) :
    Canon (execFirmwareChunkReceived n l c s) := by
  unfold execFirmwareChunkReceived
  dsimp only
  repeat' split
  all_goals simp [h]

@[simp] theorem imageFails_mem (s : State) (k : Nat) : (imageFails s k).mem = s.mem := by
  unfold imageFails
  split <;> simp

theorem wf_execEndOfPassReceived (n : Site) (l : Fin 8) (session : Word) (s : State) (h : s.mem.wf = true) :
    Canon (execEndOfPassReceived n l session s) := by
  unfold execEndOfPassReceived
  dsimp only
  repeat' split
  all_goals simp [h]

theorem wf_execRepairRequestReceived (n : Site) (l : Fin 8) (ranges : List (Nat × Nat)) (s : State)
    (h : s.mem.wf = true) : Canon (execRepairRequestReceived n l ranges s) := by
  unfold execRepairRequestReceived
  dsimp only
  repeat' split
  all_goals simp [h]

theorem wf_execFabricPortTrained (p : PortId) (locked : BitVec 8) (peer : BitVec 12) (delay : BitVec 16) (s : State)
    (h : s.mem.wf = true) : Canon (execFabricPortTrained p locked peer delay s) := by
  have hf : ∀ (f : Nat → Nat) (g : Nat → Nat → Nat × Nat) (ls : List Nat) (o u : Nat),
      (ls.foldl (fun a l => foundDefect a 10 o u (f l)) s).mem.wf = true :=
    fun f g ls o u => wf_foldl _ (fun t l ht => by simpa using ht) ls s h
  unfold execFabricPortTrained
  dsimp only
  split
  · exact h
  · repeat' split
    all_goals simp [foldl_mem _ (fun _ _ => foundDefect_mem _ _ _ _ _), h]

theorem wf_execSouthMaltsterClaims (s : State) (h : s.mem.wf = true) : Canon (execSouthMaltsterClaims s) := by
  unfold execSouthMaltsterClaims
  split <;> simp [h]

theorem wf_putActivation (s : State) (code : Nat) (h : s.mem.wf = true) : (putActivation s code).1.mem.wf = true := by
  unfold putActivation
  repeat' split
  all_goals simp [wf_losePads, wf_coldState, h]

/-! ### Machine/Crown -/

@[simp] theorem setEpoch_mem (s : State) (h : Half) (e : Word) : (setEpoch s h e).mem = s.mem := by
  unfold setEpoch
  split <;> rfl

@[simp] theorem setClaim_mem (s : State) (h : Half) (c : Option Word) : (setClaim s h c).mem = s.mem := by
  unfold setClaim
  split <;> rfl

@[simp] theorem setWitness_mem (s : State) (h : Half) (b : Bool) : (setWitness s h b).mem = s.mem := by
  unfold setWitness
  split <;> rfl

@[simp] theorem becomeHolder_mem (s : State) (h : Half) (e : Word) (acked : Bool) :
    (becomeHolder s h e acked).mem = s.mem := by
  simp [becomeHolder]

theorem wf_execCrownRenewal (s : State) (h : s.mem.wf = true) : Canon (execCrownRenewal s) := by
  unfold execCrownRenewal
  split <;> simp [h]

theorem wf_execCrownRenewalReceived (s : State) (h : s.mem.wf = true) : Canon (execCrownRenewalReceived s) := by
  unfold execCrownRenewalReceived
  dsimp only
  repeat' split
  all_goals simp [h]

theorem wf_execCrownTake (d : Half) (s : State) (h : s.mem.wf = true) : Canon (execCrownTake d s) := by
  unfold execCrownTake
  split <;> simp [h]

theorem wf_execCrownUnconfirmed (d : Half) (s : State) (h : s.mem.wf = true) : Canon (execCrownUnconfirmed d s) := by
  unfold execCrownUnconfirmed
  split <;> simp [h]

@[simp] theorem putWitness_mem (s : State) (d : Half) (e : Word) : (putWitness s d e).1.mem = s.mem := by
  unfold putWitness
  repeat' split
  all_goals simp

@[simp] theorem sendCan_mem (s : State) (m : CanMsg) : (sendCan s m).mem = s.mem := rfl

theorem wf_execCrownHeartbeat (d : Half) (s : State) (h : s.mem.wf = true) : Canon (execCrownHeartbeat d s) := by
  unfold execCrownHeartbeat
  repeat' split
  all_goals simp [h]

theorem wf_execNmtStart (d : Half) (s : State) (h : s.mem.wf = true) : Canon (execNmtStart d s) := by
  unfold execNmtStart
  split <;> simp [h]

theorem wf_execNmtEnterPreOperational (d : Half) (s : State) (h : s.mem.wf = true) :
    Canon (execNmtEnterPreOperational d s) := by
  unfold execNmtEnterPreOperational
  split <;> simp [h]

theorem wf_execNmtResetCommunication (d : Half) (s : State) (h : s.mem.wf = true) :
    Canon (execNmtResetCommunication d s) := by
  unfold execNmtResetCommunication
  split <;> simp [h]

theorem wf_execNmtStop (_h : Half) (s : State) (h : s.mem.wf = true) : Canon (execNmtStop _h s) := by
  simp [execNmtStop, h]

theorem wf_execNmtResetNode (_h : Half) (s : State) (h : s.mem.wf = true) : Canon (execNmtResetNode _h s) := by
  simp [execNmtResetNode, h]

theorem wf_execNmtResetApplication (_h : Half) (s : State) (h : s.mem.wf = true) :
    Canon (execNmtResetApplication _h s) := by
  simp [execNmtResetApplication, h]

theorem wf_execNmtHeartbeat (d : Half) (s : State) (h : s.mem.wf = true) : Canon (execNmtHeartbeat d s) := by
  unfold execNmtHeartbeat
  split <;> simp [h]

theorem wf_execEmcySend (d : Half) (s : State) (h : s.mem.wf = true) : Canon (execEmcySend d s) := by
  unfold execEmcySend
  repeat' split
  all_goals simp [h]

/-! ### Machine/Resets -/

@[simp] theorem putSeamReset_mem (s : State) (n code : Nat) : (putSeamReset s n code).1.mem = s.mem := by
  unfold putSeamReset
  dsimp only
  repeat' split
  all_goals simp

theorem wf_execSeamResetComplete (n : Site) (lanes : List LaneFail) (s : State) (h : s.mem.wf = true) :
    Canon (execSeamResetComplete n lanes s) := by
  unfold execSeamResetComplete
  split
  · exact h
  · rw [canon_next, foldl_mem _ tellAll_mem, foldl_mem _ (fun _ _ => trainLink_mem _ _ _ _)]
    exact h

theorem wf_putComputeReset (s : State) (n code : Nat) (h : s.mem.wf = true) :
    (putComputeReset s n code).1.mem.wf = true := by
  unfold putComputeReset
  dsimp only
  repeat' split
  all_goals simp [wf_loseSitePads, h]

theorem wf_execComputeResetComplete (n : Site) (failures : List TestFailure) (verified : BitVec 8) (s : State)
    (h : s.mem.wf = true) : Canon (execComputeResetComplete n failures verified s) := by
  unfold execComputeResetComplete
  dsimp only
  split
  · exact h
  · rw [canon_next, modSite_mem]
    split
    · simpa using h
    · rw [foldl_mem _ (fun _ _ => addDefect_mem _ _ _ _ _), writeDefects_mem]
      exact h

@[simp] theorem endTrip_mem (s : State) : (endTrip s).mem = s.mem := rfl

theorem wf_applyPower (s : State) (code : Nat) (h : s.mem.wf = true) : (applyPower s code).mem.wf = true := by
  unfold applyPower
  dsimp only
  repeat' split
  all_goals simp [wf_stepTest, h]

theorem wf_execPowerStateChangeDone (s : State) (h : s.mem.wf = true) : Canon (execPowerStateChangeDone s) := by
  unfold execPowerStateChangeDone
  repeat' split
  all_goals simp [wf_losePads, h]

/-! ### Machine/Dict -/

theorem wf_respond (s : State) (a : Asker) (i sub : Nat) (reply : Reply) (last : Bool) (size : Nat)
    (h : s.mem.wf = true) : (respond s a i sub reply last size).mem.wf = true := by
  unfold respond
  split <;> simp [wf_sendMgmt, h]

theorem wf_respondPut (x : Put) (a : Asker) (i sub : Nat) (h : x.1.mem.wf = true) :
    (respondPut x a i sub).mem.wf = true :=
  wf_respond _ _ _ _ _ _ _ h

@[simp] theorem putAddress_mem (s : State) (p : Nat) (bs : List Byte) : (putAddress s p bs).1.mem = s.mem := by
  unfold putAddress
  split <;> rfl

@[simp] theorem putRoutes_mem (s : State) (bs : List Byte) : (putRoutes s bs).1.mem = s.mem := by
  unfold putRoutes
  repeat' split
  all_goals simp

@[simp] theorem putWindowAddr_mem (s : State) (v : DWord) : (putWindowAddr s v).1.mem = s.mem := by
  unfold putWindowAddr
  split <;> rfl

@[simp] theorem putBudget_mem (s : State) (w : Word) : (putBudget s w).1.mem = s.mem := rfl

@[simp] theorem putTimeout_mem (s : State) (w : Word) : (putTimeout s w).1.mem = s.mem := by
  unfold putTimeout
  split <;> rfl

@[simp] theorem putHeartbeat_mem (s : State) (v : Nat) : (putHeartbeat s v).1.mem = s.mem := by
  unfold putHeartbeat
  split <;> rfl

@[simp] theorem putField_mem (s : State) (r : StagedRec) (sub : Nat) (bs : List Byte) :
    (putField s r sub bs).1.mem = s.mem := by
  unfold putField
  dsimp only
  split <;> rfl

@[simp] theorem refuseCommit_mem (s : State) (r : StagedRec) (c : Word) : (refuseCommit s r c).1.mem = s.mem := by
  unfold refuseCommit
  dsimp only
  split <;> rfl

@[simp] theorem runCommit_mem (s : State) (r : StagedRec) (atTick : Bool) (t : Time) :
    (runCommit s r atTick t).mem = s.mem := by
  unfold runCommit
  split <;> simp

@[simp] theorem putCommit_mem (s : State) (r : StagedRec) (atTick : Bool) (t : Time) :
    (putCommit s r atTick t).1.mem = s.mem := by
  unfold putCommit
  split <;> simp

theorem wf_putObject (s : State) (p : Party) (i sub : Nat) (bs : List Byte) (h : s.mem.wf = true) :
    (putObject s p i sub bs).1.mem.wf = true := by
  unfold putObject
  dsimp only
  split
  · simpa using h
  · refine wf_put_ite (by simpa using h) (wf_put_ite (by simpa using h) (wf_put_ite ?_ (wf_put_ite
      (wf_putOwnership _ _ _ h) (wf_put_ite (wf_put_ite (wf_putControl _ _ _ h) h) (wf_put_ite (wf_put_ite
      (by simpa using h) (wf_writeWindow _ _ h)) (wf_put_ite (by simpa using h) (wf_put_ite (by simpa using h)
      (wf_put_ite (wf_put_ite (wf_putSvcControl _ _ _ h) h) (wf_put_ite (by simpa using h) (wf_put_ite
      (wf_putActivation _ _ h) (wf_put_ite (by simpa using h) (wf_put_ite (by simpa using h) (wf_put_ite
      (by simpa using h) (wf_put_ite (wf_putComputeReset _ _ _ h) (wf_put_ite (wf_put_ite (by simpa using h)
      (by simpa using h)) h)))))))))))))))
    split
    · simpa using h
    · simpa using h
    · exact h

@[simp] theorem pushCross_mem (s : State) (a : Asker) (c : CrossCmd) : (pushCross s a c).mem = s.mem := rfl

theorem wf_writeControl (s : State) (a : Asker) (r : StagedRec) (code : Nat) (t : Time) (h : s.mem.wf = true) :
    (writeControl s a r code t).mem.wf = true := by
  unfold writeControl
  repeat' split
  all_goals simp [wf_respondPut, h]

theorem wf_writePower (s : State) (a : Asker) (code : Nat) (h : s.mem.wf = true) :
    (writePower s a code).mem.wf = true := by
  unfold writePower
  repeat' split
  all_goals simp [wf_respondPut, h]

theorem wf_writeObject (s : State) (a : Asker) (i sub : Nat) (bs : List Byte) (t : Time) (h : s.mem.wf = true) :
    (writeObject s a i sub bs t).mem.wf = true := by
  unfold writeObject
  dsimp only
  repeat' split
  all_goals simp [wf_respondPut, wf_writeControl, wf_writePower, wf_putObject, h]

theorem wf_clientWrite (s : State) (p : Party) (i sub : Nat) (bs : List Byte) (h : s.mem.wf = true) :
    Canon (clientWrite s p i sub bs) := by
  unfold clientWrite
  split <;> simp [wf_writeObject, h]

@[simp] theorem dropTransfer_mem (s : State) (p : Party) (i sub : Nat) : (dropTransfer s p i sub).mem = s.mem := rfl

@[simp] theorem putTransfer_mem (s : State) (t : Transfer) : (putTransfer s t).mem = s.mem := rfl

@[simp] theorem noteProgress_mem (s : State) (i n : Nat) : (noteProgress s i n).mem = s.mem := by
  unfold noteProgress
  split <;> rfl

theorem wf_writeSegment (s : State) (a : Asker) (i sub : Nat) (data : List Byte) (last : Bool) (t : Time)
    (h : s.mem.wf = true) : (writeSegment s a i sub data last t).mem.wf = true := by
  unfold writeSegment
  dsimp only
  repeat' split
  all_goals simp [wf_respondPut, wf_writeObject, h]

theorem wf_readPart (s : State) (a : Asker) (i sub off n : Nat) (first : Bool) (h : s.mem.wf = true) :
    (readPart s a i sub off n first).mem.wf = true := by
  unfold readPart
  dsimp only
  repeat' split
  all_goals simp [wf_respond, wf_readWindow, h]

@[simp] theorem windowCursor_mem (before after : State) (p : Party) (off n : Nat) :
    (windowCursor before after p off n).mem = after.mem := by
  unfold windowCursor
  dsimp only
  split <;> simp

theorem wf_execUsdoSegment (p : Party) (index : BitVec 16) (sub : BitVec 8) (seg : Segment) (s : State)
    (h : s.mem.wf = true) : Canon (execUsdoSegment p index sub seg s) := by
  unfold execUsdoSegment
  dsimp only
  repeat' split
  all_goals simp [wf_writeSegment, wf_readPart, h]

theorem wf_execUsdoTimeout (p : Party) (s : State) (h : s.mem.wf = true) : Canon (execUsdoTimeout p s) := by
  rw [execUsdoTimeout, canon_next, foldl_mem _ (fun _ _ => answer_mem _ _ _ _ _)]
  exact h

theorem wf_execJobControlStart (p : Party) (s : State) (h : s.mem.wf = true) : Canon (execJobControlStart p s) := by
  simp [execJobControlStart, wf_clientWrite, h]

theorem wf_execJobControlEndAtCommit (p : Party) (s : State) (h : s.mem.wf = true) :
    Canon (execJobControlEndAtCommit p s) := by
  simp [execJobControlEndAtCommit, wf_clientWrite, h]

theorem wf_execJobControlEndNow (p : Party) (s : State) (h : s.mem.wf = true) : Canon (execJobControlEndNow p s) := by
  simp [execJobControlEndNow, wf_clientWrite, h]

theorem wf_execServiceJobStart (p : Party) (s : State) (h : s.mem.wf = true) : Canon (execServiceJobStart p s) := by
  simp [execServiceJobStart, wf_clientWrite, h]

theorem wf_execServiceJobEnd (p : Party) (s : State) (h : s.mem.wf = true) : Canon (execServiceJobEnd p s) := by
  simp [execServiceJobEnd, wf_clientWrite, h]

theorem wf_execOwnershipClaim (p : Party) (s : State) (h : s.mem.wf = true) : Canon (execOwnershipClaim p s) := by
  simp [execOwnershipClaim, wf_clientWrite, h]

theorem wf_execOwnershipRelease (p : Party) (s : State) (h : s.mem.wf = true) : Canon (execOwnershipRelease p s) := by
  simp [execOwnershipRelease, wf_clientWrite, h]

theorem wf_execOwnershipRevoke (p : Party) (s : State) (h : s.mem.wf = true) : Canon (execOwnershipRevoke p s) := by
  simp [execOwnershipRevoke, wf_clientWrite, h]

theorem wf_execMemoryWindowWrite (p : Party) (data : List Byte) (s : State) (h : s.mem.wf = true) :
    Canon (execMemoryWindowWrite p data s) := by
  simp [execMemoryWindowWrite, wf_clientWrite, h]

theorem wf_execMemoryWindowRead (p : Party) (length : Nat) (s : State) (h : s.mem.wf = true) :
    Canon (execMemoryWindowRead p length s) := by
  unfold execMemoryWindowRead
  split <;> simp [wf_readPart, h]

theorem wf_execNumericFlagsClear (p : Party) (k : ClusterId) (s : State) (h : s.mem.wf = true) :
    Canon (execNumericFlagsClear p k s) := by
  simp [execNumericFlagsClear, wf_clientWrite, h]

theorem wf_execDiagnosticArm (p : Party) (k : ClusterId) (value : DWord) (s : State) (h : s.mem.wf = true) :
    Canon (execDiagnosticArm p k value s) := by
  simp [execDiagnosticArm, wf_clientWrite, h]

theorem wf_execSeamResetNow (p : Party) (n : Site) (s : State) (h : s.mem.wf = true) :
    Canon (execSeamResetNow p n s) := by
  simp [execSeamResetNow, wf_clientWrite, h]

theorem wf_execSeamResetAtJobEnd (p : Party) (n : Site) (s : State) (h : s.mem.wf = true) :
    Canon (execSeamResetAtJobEnd p n s) := by
  simp [execSeamResetAtJobEnd, wf_clientWrite, h]

theorem wf_execSeamResetWithdraw (p : Party) (n : Site) (s : State) (h : s.mem.wf = true) :
    Canon (execSeamResetWithdraw p n s) := by
  simp [execSeamResetWithdraw, wf_clientWrite, h]

theorem wf_execComputeDomainReset (p : Party) (n : Site) (s : State) (h : s.mem.wf = true) :
    Canon (execComputeDomainReset p n s) := by
  simp [execComputeDomainReset, wf_clientWrite, h]

theorem wf_execStagedFieldWrite (p : Party) (r : StagedRec) (sub : BitVec 8) (data : List Byte) (s : State)
    (h : s.mem.wf = true) : Canon (execStagedFieldWrite p r sub data s) := by
  simp [execStagedFieldWrite, wf_clientWrite, h]

theorem wf_execStagedCommitAtTick (p : Party) (r : StagedRec) (t : Time) (s : State) (h : s.mem.wf = true) :
    Canon (execStagedCommitAtTick p r t s) := by
  unfold execStagedCommitAtTick
  dsimp only
  split <;> simp [wf_writeObject, h]

theorem wf_execStagedCommitNow (p : Party) (r : StagedRec) (s : State) (h : s.mem.wf = true) :
    Canon (execStagedCommitNow p r s) := by
  simp [execStagedCommitNow, wf_clientWrite, h]

theorem wf_execStagedDiscard (p : Party) (r : StagedRec) (s : State) (h : s.mem.wf = true) :
    Canon (execStagedDiscard p r s) := by
  simp [execStagedDiscard, wf_clientWrite, h]

theorem wf_execObjectWrite (p : Party) (index : BitVec 16) (sub : BitVec 8) (data : List Byte) (s : State)
    (h : s.mem.wf = true) : Canon (execObjectWrite p index sub data s) := by
  simp [execObjectWrite, wf_clientWrite, h]

theorem wf_execPowerStateRun (p : Party) (s : State) (h : s.mem.wf = true) : Canon (execPowerStateRun p s) := by
  simp [execPowerStateRun, wf_clientWrite, h]

theorem wf_execPowerStateHold (p : Party) (s : State) (h : s.mem.wf = true) : Canon (execPowerStateHold p s) := by
  simp [execPowerStateHold, wf_clientWrite, h]

theorem wf_execPowerStatePark (p : Party) (s : State) (h : s.mem.wf = true) : Canon (execPowerStatePark p s) := by
  simp [execPowerStatePark, wf_clientWrite, h]

theorem wf_execPowerStateQuiet (p : Party) (s : State) (h : s.mem.wf = true) : Canon (execPowerStateQuiet p s) := by
  simp [execPowerStateQuiet, wf_clientWrite, h]

theorem wf_execRackBudgetWrite (p : Party) (watts : Word) (s : State) (h : s.mem.wf = true) :
    Canon (execRackBudgetWrite p watts s) := by
  simp [execRackBudgetWrite, wf_clientWrite, h]

theorem wf_execCrownWitness (p : Party) (epoch : Word) (s : State) (h : s.mem.wf = true) :
    Canon (execCrownWitness p epoch s) := by
  simp [execCrownWitness, wf_clientWrite, h]

theorem wf_execLifetimeEnergyRead (p : Party) (s : State) (h : s.mem.wf = true) :
    Canon (execLifetimeEnergyRead p s) := by
  unfold execLifetimeEnergyRead
  split <;> simp [wf_readPart, h]

theorem wf_execAttestationChallenge (p : Party) (nonce : List Byte) (s : State) (h : s.mem.wf = true) :
    Canon (execAttestationChallenge p nonce s) := by
  simp [execAttestationChallenge, wf_clientWrite, h]

theorem wf_execImageSetUpload (p : Party) (data : List Byte) (s : State) (h : s.mem.wf = true) :
    Canon (execImageSetUpload p data s) := by
  simp [execImageSetUpload, wf_clientWrite, h]

theorem wf_execActivationClusterService (p : Party) (s : State) (h : s.mem.wf = true) :
    Canon (execActivationClusterService p s) := by
  simp [execActivationClusterService, wf_clientWrite, h]

theorem wf_execActivationFullRestart (p : Party) (s : State) (h : s.mem.wf = true) :
    Canon (execActivationFullRestart p s) := by
  simp [execActivationFullRestart, wf_clientWrite, h]

theorem wf_execDefectListClearRequest (p : Party) (data : List Byte) (s : State) (h : s.mem.wf = true) :
    Canon (execDefectListClearRequest p data s) := by
  simp [execDefectListClearRequest, wf_clientWrite, h]

theorem wf_execManagementRoutesWrite (p : Party) (data : List Byte) (s : State) (h : s.mem.wf = true) :
    Canon (execManagementRoutesWrite p data s) := by
  simp [execManagementRoutesWrite, wf_clientWrite, h]

theorem wf_mgmtWrite (s : State) (a : Asker) (r : MgmtRequest) (h : s.mem.wf = true) :
    (mgmtWrite s a r).mem.wf = true := by
  unfold mgmtWrite
  dsimp only
  repeat' split
  all_goals simp [wf_writeObject, wf_respondPut, wf_writeSegment, h]

theorem wf_runRequest (s : State) (r : MgmtRequest) (h : s.mem.wf = true) : (runRequest s r).mem.wf = true := by
  unfold runRequest
  repeat' split
  all_goals simp [wf_respondPut, wf_readPart, wf_mgmtWrite, h]

theorem wf_takeRequest (s : State) (r : MgmtRequest) (h : s.mem.wf = true) : (takeRequest s r).mem.wf = true := by
  unfold takeRequest
  dsimp only
  repeat' split
  all_goals simp [wf_sendMgmt, wf_respondPut, wf_runRequest, h]

theorem wf_runOrdered (s : State) (h : s.mem.wf = true) : (runOrdered s).mem.wf = true := by
  refine wf_foldl _ (fun t r ht => ?_) _ _ h
  dsimp only
  split
  · exact wf_runRequest _ _ ht
  · exact ht

@[simp] theorem fetchRequest_mem (s : State) (r : MgmtRequest) : (fetchRequest s r).mem = s.mem := by
  refine foldl_mem _ (fun t p => ?_) _ _
  dsimp only
  split
  · rename_i k _
    cases ha : arrive t p k with
    | none => rfl
    | some u => exact arrive_mem t u p k ha
  · rfl

theorem wf_execManagementRequest (r : MgmtRequest) (s : State) (h : s.mem.wf = true) :
    Canon (execManagementRequest r s) := by
  unfold execManagementRequest
  dsimp only
  split <;> simp [wf_takeRequest, h]

@[simp] theorem takeResponse_mem (s : State) (k : FabPacket) : (takeResponse s k).mem = s.mem := by
  unfold takeResponse
  split <;> rfl

theorem wf_execManagementForward (port : PortId) (k : FabPacket) (s : State) (h : s.mem.wf = true) :
    Canon (execManagementForward port k s) := by
  unfold execManagementForward
  dsimp only
  split
  · exact h
  · split
    · exact h
    · rename_i u hu
      have hu : u.mem.wf = true := by rw [arrive_mem s u _ _ hu]; exact h
      repeat' split
      all_goals simp [wf_forwardMgmt, wf_takeRequest, hu]

theorem wf_applyCross (s : State) (c : CrossCmd) (h : s.mem.wf = true) : (applyCross s c).1.mem.wf = true := by
  unfold applyCross
  repeat' split
  all_goals simp [wf_applyPower, h]

@[simp] theorem refuseCross_mem (s : State) (c : CrossCmd) : (refuseCross s c).1.mem = s.mem := by
  unfold refuseCross
  split <;> simp

theorem wf_settleCross (s : State) (accepted : Bool) (h : s.mem.wf = true) :
    (settleCross s accepted).mem.wf = true := by
  unfold settleCross
  split
  · exact h
  · refine wf_runOrdered _ (wf_respondPut _ _ _ _ ?_)
    split
    · exact wf_applyCross _ _ h
    · simpa using h

theorem wf_execCrossHalfCommand (s : State) (h : s.mem.wf = true) : Canon (execCrossHalfCommand s) := by
  simp [execCrossHalfCommand, wf_settleCross, h]

theorem wf_execCrossHalfTimeout (s : State) (h : s.mem.wf = true) : Canon (execCrossHalfTimeout s) := by
  simp [execCrossHalfTimeout, wf_settleCross, h]

/-! ### Machine/Forward -/

theorem wf_execFnop (k : ClusterId) (e : FSel) (s : State) (h : s.mem.wf = true) : Canon (execFnop k e s) := by
  simp [execFnop, wf_runEngine, h]

theorem wf_execFmm (k : ClusterId) (e : FSel) (s : State) (h : s.mem.wf = true) : Canon (execFmm k e s) := by
  simp +contextual [execFmm, wf_runEngine, wf_matrixMultiply, h]

theorem wf_execFload (k : ClusterId) (e : FSel) (s : State) (h : s.mem.wf = true) : Canon (execFload k e s) := by
  simp +contextual [execFload, wf_runEngine, wf_matrixLoad, h]

theorem wf_execFdrain (k : ClusterId) (e : FSel) (s : State) (h : s.mem.wf = true) : Canon (execFdrain k e s) := by
  simp +contextual [execFdrain, wf_runEngine, wf_drainTile, h]

theorem wf_execFclear (k : ClusterId) (e : FSel) (s : State) (h : s.mem.wf = true) : Canon (execFclear k e s) := by
  simp +contextual [execFclear, wf_runEngine, h]

/-! ### Machine/Vector -/

@[simp] theorem putTile_mem (s : State) (k e r : Nat) (t : List Word) : (putTile s k e r t).mem = s.mem := rfl

theorem wf_vectorLoad (s : State) (k e : Nat) (q : QInstr) (h : s.mem.wf = true) :
    (vectorLoad s k e q).mem.wf = true := by
  refine wf_guarded _ _ _ _ _ _ (fun t ht => ?_) h
  dsimp only
  split
  · exact wf_streamFault _ _ _ _ _ ht
  · exact wf_guarded _ _ _ _ _ _ (fun _ hu => hu) ht

theorem wf_vectorStore (s : State) (k e : Nat) (q : QInstr) (h : s.mem.wf = true) :
    (vectorStore s k e q).mem.wf = true := by
  simp +contextual [vectorStore, wf_guarded, wf_padWrites, h]

@[simp] theorem putResult_mem (s : State) (k e : Nat) (q : QInstr) (rs : List (Word × Flags)) :
    (putResult s k e q rs).mem = s.mem := rfl

@[simp] theorem vectorTwo_mem (f : Nat → Word → Word → Word × Flags) (s : State) (k e : Nat) (q : QInstr) :
    (vectorTwo f s k e q).mem = s.mem := rfl

@[simp] theorem vectorOne_mem (s : State) (k e : Nat) (q : QInstr) : (vectorOne s k e q).mem = s.mem := rfl

@[simp] theorem vectorFma_mem (s : State) (k e : Nat) (q : QInstr) : (vectorFma s k e q).mem = s.mem := by
  unfold vectorFma
  split <;> rfl

@[simp] theorem vectorSelect_mem (s : State) (k e : Nat) (q : QInstr) : (vectorSelect s k e q).mem = s.mem := by
  unfold vectorSelect
  split <;> rfl

@[simp] theorem vectorReduce_mem (s : State) (k e : Nat) (q : QInstr) : (vectorReduce s k e q).mem = s.mem := rfl

@[simp] theorem vectorConvert_mem (s : State) (k e : Nat) (q : QInstr) : (vectorConvert s k e q).mem = s.mem := rfl

theorem wf_lineLoad (s : State) (k e : Nat) (q : QInstr) (h : s.mem.wf = true) :
    (lineLoad s k e q).mem.wf = true := by
  simp +contextual [lineLoad, wf_guarded, h]

theorem wf_lineStore (s : State) (k e : Nat) (q : QInstr) (h : s.mem.wf = true) :
    (lineStore s k e q).mem.wf = true := by
  simp +contextual [lineStore, wf_guarded, wf_padWrites, h]

theorem wf_runVector (k : ClusterId) (e : VSel) (op : Nat) (eff : State → Nat → Nat → QInstr → State) (s : State)
    (he : ∀ t a b q, t.mem.wf = true → (eff t a b q).mem.wf = true) (h : s.mem.wf = true) :
    (runVector k e op eff s).mem.wf = true :=
  wf_runEngine _ _ _ _ _ _ (fun _ q ht => (canon_next _).2 (wf_guarded _ _ _ _ _ _ (fun u hu => he u _ _ q hu) ht)) h

theorem wf_execVnop (k : ClusterId) (e : VSel) (s : State) (h : s.mem.wf = true) : Canon (execVnop k e s) := by
  simp [execVnop, wf_runVector, h]

theorem wf_execVld (k : ClusterId) (e : VSel) (s : State) (h : s.mem.wf = true) : Canon (execVld k e s) :=
  wf_runVector _ _ _ _ _ (fun t _ _ q ht => wf_vectorLoad t _ _ q ht) h

theorem wf_execVst (k : ClusterId) (e : VSel) (s : State) (h : s.mem.wf = true) : Canon (execVst k e s) :=
  wf_runVector _ _ _ _ _ (fun t _ _ q ht => wf_vectorStore t _ _ q ht) h

theorem wf_execVbin (k : ClusterId) (e : VSel) (s : State) (h : s.mem.wf = true) : Canon (execVbin k e s) :=
  wf_runVector _ _ _ _ _ (fun _ _ _ _ ht => ht) h

theorem wf_execVfma (k : ClusterId) (e : VSel) (s : State) (h : s.mem.wf = true) : Canon (execVfma k e s) :=
  wf_runVector _ _ _ _ _ (fun _ _ _ _ ht => by rw [vectorFma_mem]; exact ht) h

theorem wf_execVun (k : ClusterId) (e : VSel) (s : State) (h : s.mem.wf = true) : Canon (execVun k e s) :=
  wf_runVector _ _ _ _ _ (fun _ _ _ _ ht => ht) h

theorem wf_execVcmp (k : ClusterId) (e : VSel) (s : State) (h : s.mem.wf = true) : Canon (execVcmp k e s) :=
  wf_runVector _ _ _ _ _ (fun _ _ _ _ ht => ht) h

theorem wf_execVsel (k : ClusterId) (e : VSel) (s : State) (h : s.mem.wf = true) : Canon (execVsel k e s) :=
  wf_runVector _ _ _ _ _ (fun _ _ _ _ ht => by rw [vectorSelect_mem]; exact ht) h

theorem wf_execVred (k : ClusterId) (e : VSel) (s : State) (h : s.mem.wf = true) : Canon (execVred k e s) :=
  wf_runVector _ _ _ _ _ (fun _ _ _ _ ht => ht) h

theorem wf_execVcvt (k : ClusterId) (e : VSel) (s : State) (h : s.mem.wf = true) : Canon (execVcvt k e s) :=
  wf_runVector _ _ _ _ _ (fun _ _ _ _ ht => ht) h

theorem wf_execVldl (k : ClusterId) (e : VSel) (s : State) (h : s.mem.wf = true) : Canon (execVldl k e s) :=
  wf_runVector _ _ _ _ _ (fun t _ _ q ht => wf_lineLoad t _ _ q ht) h

theorem wf_execVstl (k : ClusterId) (e : VSel) (s : State) (h : s.mem.wf = true) : Canon (execVstl k e s) :=
  wf_runVector _ _ _ _ _ (fun t _ _ q ht => wf_lineStore t _ _ q ht) h

/-! ### Machine/Sequencer -/

@[simp] theorem modCur_mem (s : State) (k : Nat) (f : Task → Task) : (modCur s k f).mem = s.mem := rfl

@[simp] theorem setPc_mem (s : State) (k pc : Nat) : (setPc s k pc).mem = s.mem := rfl

@[simp] theorem issueWord_mem (s : State) (k pc : Nat) (ext : Option IWord) (w : IWord) :
    (issueWord s k pc ext w).mem = s.mem := by
  unfold issueWord
  dsimp only
  repeat' split
  all_goals simp

theorem wf_checkIssue (s : State) (k pc : Nat) (ext : Option IWord) (w : IWord) (h : s.mem.wf = true) :
    (checkIssue s k pc ext w).mem.wf = true := by
  unfold checkIssue
  dsimp only
  split <;> simp [wf_streamFault, h]

theorem wf_fetchWord (s : State) (k pc : Nat) (use : State → State)
    (hu : ∀ t, t.mem.wf = true → (use t).mem.wf = true) (h : s.mem.wf = true) :
    (fetchWord s k pc use).mem.wf = true := by
  have hp := wf_checkPad s k (wordAddr k (clusterAt s k).cur.entry pc) 16 h
  unfold fetchWord
  dsimp only
  split
  · exact hu _ hp
  · exact wf_dataErrorPad _ _ _ _ _ hp

theorem wf_execEngineWordIssue (k : ClusterId) (s : State) (h : s.mem.wf = true) :
    Canon (execEngineWordIssue k s) := by
  have hissue := fun pc ext w => wf_fetchWord s k.val pc (fun t => checkIssue t k.val pc ext w)
    (fun t ht => wf_checkIssue t _ _ _ _ ht) h
  unfold execEngineWordIssue
  dsimp only
  repeat' split
  · exact h
  · exact wf_streamFault _ _ _ _ _ h
  · exact h
  · exact wf_streamFault _ _ _ _ _ h
  · exact wf_fetchWord _ _ _ _ (fun t ht => wf_fetchWord _ _ _ _ (fun u hu => wf_checkIssue u _ _ _ _ hu) ht) h
  · exact hissue _ _ _

theorem wf_seqWaits (s : State) (k : Nat) (w : IWord) (cond : State → Bool) (eff : State → State)
    (he : ∀ t, t.mem.wf = true → (eff t).mem.wf = true) (h : s.mem.wf = true) :
    (seqWaits s k w cond eff).mem.wf = true := by
  have hj : ∀ f, (if (clusterAt s k).seqWait then s else modCluster s k f).mem.wf = true := fun f => wf_ite h h
  unfold seqWaits
  dsimp only
  split
  · exact wf_ite (he _ h) h
  · exact wf_ite (he _ (hj _)) (hj _)

theorem wf_runSeq (s : State) (k op : Nat) (cond : State → Bool) (eff : State → Nat → IWord → State)
    (he : ∀ t pc w, t.mem.wf = true → (eff t pc w).mem.wf = true) (h : s.mem.wf = true) :
    (runSeq s k op cond eff).mem.wf = true := by
  unfold runSeq
  dsimp only
  split
  · exact h
  · split
    · exact h
    · split
      · refine wf_fetchWord _ _ _ _ (fun t ht => ?_) h
        repeat' split
        · exact wf_streamFault _ _ _ _ _ ht
        · exact ht
        · exact wf_seqWaits _ _ _ _ _ (fun u hu => he u _ _ hu) ht
      · exact h

@[simp] theorem writeReg_mem (s : State) (k r pc : Nat) (v : Word) : (writeReg s k r pc v).mem = s.mem := rfl

theorem wf_jump (s : State) (k pc target : Nat) (h : s.mem.wf = true) : (jump s k pc target).mem.wf = true := by
  unfold jump
  split <;> simp [wf_streamFault, h]

theorem wf_execNop (k : ClusterId) (s : State) (h : s.mem.wf = true) : Canon (execNop k s) := by
  simp +contextual [execNop, wf_runSeq, h]

theorem wf_execSeti (k : ClusterId) (s : State) (h : s.mem.wf = true) : Canon (execSeti k s) := by
  simp +contextual [execSeti, wf_runSeq, h]

theorem wf_execAddi (k : ClusterId) (s : State) (h : s.mem.wf = true) : Canon (execAddi k s) := by
  simp +contextual [execAddi, wf_runSeq, h]

theorem wf_execBr (k : ClusterId) (s : State) (h : s.mem.wf = true) : Canon (execBr k s) :=
  wf_runSeq _ _ _ _ _ (fun t pc _ ht => wf_ite (wf_jump t _ pc _ ht) ht) h

theorem wf_execLoop (k : ClusterId) (s : State) (h : s.mem.wf = true) : Canon (execLoop k s) :=
  wf_runSeq _ _ _ _ _ (fun t pc _ ht => wf_ite (wf_jump _ _ pc _ (by simpa using ht)) (by simpa using ht)) h

theorem wf_execTestf (k : ClusterId) (s : State) (h : s.mem.wf = true) : Canon (execTestf k s) :=
  wf_runSeq _ _ _ _ _ (fun t pc _ ht => wf_ite (wf_jump t _ pc _ ht) ht) h

theorem wf_execClrf (k : ClusterId) (s : State) (h : s.mem.wf = true) : Canon (execClrf k s) := by
  simp +contextual [execClrf, wf_runSeq, h]

theorem wf_execBoil (k : ClusterId) (s : State) (h : s.mem.wf = true) : Canon (execBoil k s) := by
  simp +contextual [execBoil, wf_runSeq, h]

theorem wf_execYield (k : ClusterId) (s : State) (h : s.mem.wf = true) : Canon (execYield k s) := by
  refine wf_runSeq _ _ _ _ _ (fun t pc _ ht => ?_) h
  dsimp only
  split <;> exact ht

theorem wf_endTaskFrame (s : State) (k nextPc : Nat) (halt : Bool) (h : s.mem.wf = true) :
    (endTaskFrame s k nextPc halt).mem.wf = true := by
  unfold endTaskFrame
  extract_lets c t s1 s2 s3 c3 s4
  have h1 : s1.mem.wf = true := wf_padWrite _ _ _ _ h
  have h2 : s2.mem.wf = true := by
    dsimp only [s2]
    split
    · exact wf_padWrite _ _ _ _ h1
    · exact h1
  have h3 : s3.mem.wf = true := by simpa [s3] using h2
  have h4 : s4.mem.wf = true := by
    dsimp only [s4]
    repeat' split
    · exact wf_padWrite _ _ _ _ h3
    · exact h3
    · exact h3
  simpa using h4

theorem wf_execFend (k : ClusterId) (s : State) (h : s.mem.wf = true) : Canon (execFend k s) :=
  wf_runSeq _ _ _ _ _ (fun t _ _ ht => wf_ite (wf_ite (wf_endTaskFrame t _ _ _ ht) (wf_streamFault t _ _ _ _ ht))
    (wf_endTaskFrame t _ _ _ ht)) h

theorem wf_execHalt (k : ClusterId) (s : State) (h : s.mem.wf = true) : Canon (execHalt k s) := by
  simp +contextual [execHalt, wf_runSeq, wf_endTaskFrame, h]

theorem wf_saveHeader (s : State) (k : Nat) (h : s.mem.wf = true) : (saveHeader s k).mem.wf = true := by
  unfold saveHeader
  extract_lets c t base s1 s2 s3
  have h3 : s3.mem.wf = true := wf_storePlain _ _ _ (wf_storePlain _ _ _ (wf_storePlain _ _ _ h))
  split
  · exact wf_storePlain _ _ _ h3
  · exact h3

theorem wf_saveTiles (s : State) (k : Nat) (h : s.mem.wf = true) : (saveTiles s k).mem.wf = true :=
  wf_foldl _ (fun _ _ ht => wf_foldl _ (fun u _ hu => wf_storePlain u _ _ hu) _ _ ht) _ _
    (wf_foldl _ (fun _ _ ht => wf_foldl _ (fun u _ hu => wf_storePlain u _ _ hu) _ _ ht) _ _ h)

@[simp] theorem restoreAll_mem (s : State) (k n : Nat) : (restoreAll s k n).mem = s.mem := rfl

@[simp] theorem restoreFresh_mem (s : State) (k : Nat) : (restoreFresh s k).mem = s.mem := rfl

@[simp] theorem loadSync_mem (s : State) (k n : Nat) : (loadSync s k n).mem = s.mem := rfl

theorem wf_switchTask (s : State) (k n : Nat) (h : s.mem.wf = true) : (switchTask s k n).mem.wf = true := by
  unfold switchTask
  extract_lets c s1 s2 s3 s4 inbox s5
  have h1 : s1.mem.wf = true := by
    dsimp only [s1]
    split
    · exact h
    · exact wf_saveHeader _ _ h
  have h2 : s2.mem.wf = true := by
    dsimp only [s2]
    split
    · exact wf_saveTiles _ _ h1
    · exact h1
  have h5 : s5.mem.wf = true := by
    simp only [s5, s4, s3, modCluster_mem, loadSync_mem]
    split <;> simpa using h2
  exact wf_foldl _ (fun t g ht => wf_applySignal t g ht) _ _ h5

theorem wf_execTaskSwitch (k : ClusterId) (s : State) (h : s.mem.wf = true) : Canon (execTaskSwitch k s) := by
  unfold execTaskSwitch
  dsimp only
  repeat' split
  all_goals simp [wf_switchTask, h]

theorem wf_execTaskSwitchTimeout (k : ClusterId) (s : State) (h : s.mem.wf = true) :
    Canon (execTaskSwitchTimeout k s) := by
  unfold execTaskSwitchTimeout
  dsimp only
  split <;> simp [wf_streamFault, h]

/-! ### Machine/Tick -/

theorem wf_clearImages (s : State) (k : Nat) (c : Cluster) (h : s.mem.wf = true) :
    (clearImages s k c).mem.wf = true := by
  unfold clearImages
  split
  · exact h
  · exact wf_foldl _ (fun t x ht => wf_storePlain t _ _ ht) _ _ h

theorem wf_beginFrame (s : State) (drain : Nat) (h : s.mem.wf = true) : (beginFrame s drain).mem.wf = true := by
  have hc : ((dropScratch s).clusters.foldl (fun a c => clearImages a c.1 c.2) (dropScratch s)).mem.wf = true :=
    wf_foldl _ (fun t c ht => wf_clearImages t c.1 c.2 ht) _ _ (wf_dropScratch s h)
  exact wf_acceptHeld _ (by rw [beginCeiling_mem]; exact hc)

theorem wf_groupFault (s : State) (gs : List (Nat × (Nat × Nat × Nat × Nat))) (h : s.mem.wf = true) :
    (groupFault s gs).mem.wf = true :=
  wf_endJob _ _ _ (wf_foldl _ (fun t g ht => by simpa using ht) _ _ h)

theorem wf_withheldTick (s : State) (d : Half) (h : s.mem.wf = true) : (withheldTick s d).mem.wf = true := by
  unfold withheldTick
  dsimp only
  split
  · exact wf_endJobSpoilt _ _ _ (by simpa using h)
  · exact h

@[simp] theorem armClusters_mem (s : State) : (armClusters s).mem = s.mem := rfl

@[simp] theorem commitSettings_mem (s : State) : (commitSettings s).mem = s.mem := by
  simp [commitSettings]

theorem wf_commitFrame (s : State) (drain : Nat) (h : s.mem.wf = true) : (commitFrame s drain).mem.wf = true := by
  have hm : (commitMarks (dropCaches s).mem).wf = true := wf_commitMarks (wf_dropCaches s h)
  unfold commitFrame
  dsimp only
  refine wf_ite (wf_endJob _ _ _ ?_) (wf_ite (wf_endJob _ _ _ ?_) (wf_ite ?_ (wf_ite (wf_beginFrame _ _ ?_) ?_)))
  all_goals
    simp only [commitSettings_mem]
    split
    · simpa using hm
    · exact hm

theorem wf_holdFrame (s : State) (drain : Nat) (h : s.mem.wf = true) : (holdFrame s drain).mem.wf = true := h

theorem wf_sendVotes (s : State) (v : Vote) (h : s.mem.wf = true) : (sendVotes s v).mem.wf = true :=
  wf_foldl _ (fun t _ ht => wf_sendMgmt t _ ht) _ _ h

@[simp] theorem interruption_mem (s : State) (edge : Option Time) (drain : Nat) :
    (interruption s edge drain).2.mem = s.mem := by
  unfold interruption
  split <;> rfl

theorem wf_replayFrame (s : State) (edge : Option Time) (drain : Nat) (h : s.mem.wf = true) :
    (replayFrame s edge drain).mem.wf = true := by
  simp [replayFrame, wf_beginFrame, h]

@[simp] theorem recoveryReady_mem (s : State) (edge : Option Time) : (recoveryReady s edge).2.mem = s.mem := by
  unfold recoveryReady
  dsimp only
  repeat' split
  all_goals simp

@[simp] theorem loseEdge_mem (s : State) : (loseEdge s).mem = s.mem := rfl

theorem wf_decideTick (s : State) (own : Vote) (missing : Bool) (edge : Option Time) (drain : Nat)
    (h : s.mem.wf = true) : (decideTick s own missing edge drain).mem.wf = true := by
  unfold decideTick
  dsimp only
  repeat' split
  · exact wf_withheldTick _ _ h
  · exact wf_replayFrame _ _ _ h
  · simpa using h
  · exact wf_raise _ _ _ _ _ _ _ h
  · exact wf_commitFrame _ _ h
  · exact wf_holdFrame _ _ h

theorem wf_settleTick (s : State) (own : Vote) (missing : Bool) (edge : Option Time) (drain : Nat)
    (h : s.mem.wf = true) : (settleTick s own missing edge drain).mem.wf = true := wf_decideTick _ _ _ _ _ h

theorem wf_castVote (s : State) (own : Vote) (edge : Option Time) (drain : Nat) (h : s.mem.wf = true) :
    (castVote s own edge drain).mem.wf = true := by
  unfold castVote
  dsimp only
  repeat' split
  all_goals simp [wf_settleTick, wf_sendVotes, h]

theorem wf_endCensus (s : State) (late : List Nat) (edge : Option Time) (drain : Nat) (h : s.mem.wf = true) :
    (endCensus s late edge drain).mem.wf = true := by
  unfold endCensus
  dsimp only
  repeat' split
  all_goals simp [wf_castVote, wf_groupFault, h]

theorem wf_overrunEnds (s : State) (h : s.mem.wf = true) : (overrunEnds s).mem.wf = true := by
  refine wf_endJobSpoilt _ _ _ ?_
  dsimp only
  split
  · simpa using h
  · exact wf_foldl _ (fun t u ht => by simpa using ht) _ _ h

theorem wf_sourceLostEnds (s : State) (h : s.mem.wf = true) : (sourceLostEnds s).mem.wf = true := by
  unfold sourceLostEnds
  dsimp only
  repeat' split
  all_goals simp [wf_endJobSpoilt, wf_endJob, h]

theorem wf_settleDue (s : State) (h : s.mem.wf = true) : (settleDue s).mem.wf = true := by
  unfold settleDue
  dsimp only
  repeat' split
  all_goals simp [wf_overrunEnds, wf_sourceLostEnds, h]

@[simp] theorem sendBeacons_mem (s : State) (base : Nat) : (sendBeacons s base).mem = s.mem :=
  foldl_mem _ (fun _ _ => by split <;> simp) _ _

theorem wf_heldEdge (s : State) (h : s.mem.wf = true) : (heldEdge s).mem.wf = true := by
  simp [heldEdge, wf_dropCaches, h]

theorem wf_tickEdge (s : State) (edge : Option Time) (base drain : Nat) (h : s.mem.wf = true) :
    (tickEdge s edge base drain).mem.wf = true := by
  unfold tickEdge
  extract_lets s1 t2 s2 r t3 s3 s4 job s5
  have h2 : s2.mem.wf = true := by simpa [s2, s1] using h
  have hr : r.2.mem.wf = true := by simpa [r] using h2
  have h3 : s3.mem.wf = true := h2
  have h4 : s4.mem.wf = true := wf_heldEdge _ h2
  clear_value r s3 s4
  have h5 : s5.mem.wf = true := wf_beginFrame _ _ h4
  clear_value s2 s5
  split
  · exact h2
  · split
    case h_1 =>
      split
      · exact wf_castVote _ _ _ _ hr
      · split
        · exact wf_endCensus _ _ _ _ h3
        · exact h3
    case h_2 =>
      split
      · exact wf_withheldTick _ _ h2
      · split
        · split
          · exact wf_revokeJob _ h5
          · exact h5
        · exact h4
    case h_3 =>
      split
      · exact wf_withheldTick _ _ h2
      · exact wf_heldEdge _ h2
    case h_4 => exact wf_settleTick _ _ _ _ _ h2

theorem wf_acceptEdge (s : State) (t : Time) (drain : Nat) (h : s.mem.wf = true) :
    (acceptEdge s t drain).mem.wf = true := by
  simp [acceptEdge, wf_settleDue, wf_tickEdge, h]

theorem wf_judgeEdge (s : State) (t : Time) (drain : Nat) (h : s.mem.wf = true) :
    (judgeEdge s t drain).mem.wf = true := by
  unfold judgeEdge
  split <;> simp [wf_acceptEdge, h]

theorem wf_execTickEdge (t : Time) (drain : Nat) (s : State) (h : s.mem.wf = true) :
    Canon (execTickEdge t drain s) := by
  unfold execTickEdge
  split <;> simp [wf_settleDue, wf_tickEdge, h]

theorem wf_execTickInPulse (t : Time) (drain : Nat) (s : State) (h : s.mem.wf = true) :
    Canon (execTickInPulse t drain s) := by
  unfold execTickInPulse
  split <;> simp [wf_judgeEdge, h]

theorem wf_execFlywheelEdge (drain : Nat) (s : State) (h : s.mem.wf = true) : Canon (execFlywheelEdge drain s) := by
  unfold execFlywheelEdge
  repeat' split
  all_goals simp [wf_settleDue, wf_tickEdge, h]

theorem wf_execTickSourceLost (s : State) (h : s.mem.wf = true) : Canon (execTickSourceLost s) := by
  unfold execTickSourceLost
  split <;> simp [wf_sourceLostEnds, h]

theorem wf_execBeaconReceived (port : PortId) (t : Time) (seq : DWord) (offset : BitVec 16) (hops : BitVec 4)
    (good : Bool) (drain : Nat) (s : State) (h : s.mem.wf = true) :
    Canon (execBeaconReceived port t seq offset hops good drain s) := by
  unfold execBeaconReceived
  dsimp only
  repeat' split
  all_goals simp [wf_raise, wf_acceptEdge, h]

theorem wf_execCensusTimeout (drain : Nat) (s : State) (h : s.mem.wf = true) : Canon (execCensusTimeout drain s) := by
  unfold execCensusTimeout
  repeat' split
  all_goals simp [wf_sendVotes, wf_endCensus, h]

theorem wf_takeVote (s : State) (smod : BitVec 12) (seq : DWord) (v : Vote) (drain : Nat) (h : s.mem.wf = true) :
    (takeVote s smod seq v drain).mem.wf = true := by
  unfold takeVote
  dsimp only
  repeat' split
  all_goals simp [wf_settleTick, h]

theorem wf_execDomainVoteReceived (port : PortId) (t : Time) (k : FabPacket) (drain : Nat) (s : State)
    (h : s.mem.wf = true) : Canon (execDomainVoteReceived port t k drain s) := by
  unfold execDomainVoteReceived
  dsimp only
  split
  · exact h
  · split
    · exact h
    · rename_i u hu
      have hu : u.mem.wf = true := by rw [arrive_mem _ u _ _ hu]; exact h
      repeat' split
      all_goals simp [wf_forwardMgmt, wf_takeVote, hu]

theorem wf_execVoteWaitExpiry (drain : Nat) (s : State) (h : s.mem.wf = true) :
    Canon (execVoteWaitExpiry drain s) := by
  unfold execVoteWaitExpiry
  repeat' split
  all_goals simp [wf_settleTick, h]

theorem wf_execFrameOverrun (s : State) (h : s.mem.wf = true) : Canon (execFrameOverrun s) := by
  unfold execFrameOverrun
  split <;> simp [wf_overrunEnds, h]

theorem wf_execWriteOutComplete (s : State) (h : s.mem.wf = true) : Canon (execWriteOutComplete s) := by
  unfold execWriteOutComplete
  split <;> simp [wf_finishJob, wf_writeOut, h]

/-! ### Machine/Update -/

theorem wf_updateTile (s : State) (k : Nat) (q : QInstr) (h : s.mem.wf = true) :
    (updateTile s k q).mem.wf = true := by
  refine wf_guarded _ _ _ _ _ _ (fun t ht => ?_) h
  dsimp only
  split
  · exact ht
  · rw [modCluster_mem, setFlags_mem]
    exact wf_padWrites _ _ _ ht

theorem wf_execUnop (k : ClusterId) (s : State) (h : s.mem.wf = true) : Canon (execUnop k s) := by
  simp [execUnop, wf_runEngine, h]

theorem wf_execUapply (k : ClusterId) (s : State) (h : s.mem.wf = true) : Canon (execUapply k s) :=
  (canon_next _).2 (wf_runEngine _ _ _ _ _ _ (fun t q ht => (canon_next _).2 (wf_updateTile t _ q ht)) h)

theorem wf_castTile (s : State) (k : Nat) (q : QInstr) (h : s.mem.wf = true) : (castTile s k q).mem.wf = true := by
  simp +contextual [castTile, wf_guarded, wf_padWrites, h]

theorem wf_execUcast (k : ClusterId) (s : State) (h : s.mem.wf = true) : Canon (execUcast k s) :=
  (canon_next _).2 (wf_runEngine _ _ _ _ _ _ (fun t q ht => (canon_next _).2 (wf_castTile t _ q ht)) h)

/-! ### Machine/Upkeep -/

theorem wf_replaceLine (s : State) (n : Site) (l e kind line detail : Nat) (t : Time) (h : s.mem.wf = true) :
    (replaceLine s n l e kind line detail t).mem.wf = true := by
  unfold replaceLine
  dsimp only
  split <;> simp [wf_raise, wf_raiseSite, h]

theorem wf_execArrayCheckEvent (n : Site) (l : Fin 8) (engine : Fin 6) (row col : Fin 132) (t : Time) (s : State)
    (h : s.mem.wf = true) : Canon (execArrayCheckEvent n l engine row col t s) := by
  unfold execArrayCheckEvent
  dsimp only
  repeat' split
  all_goals simp [wf_raise, wf_replaceLine, h]

theorem wf_stackDataError (s : State) (n a : Nat) (noCopy : Bool) (h : s.mem.wf = true) :
    (stackDataError s n a noCopy).mem.wf = true := by
  unfold stackDataError
  repeat' split
  all_goals simp [wf_stackError, wf_restoreLine, h]

theorem wf_execDataError (place : DataErrorAt) (s : State) (h : s.mem.wf = true) : Canon (execDataError place s) := by
  unfold execDataError
  repeat' split
  all_goals simp [wf_raise, wf_dataErrorPad, wf_stackDataError, h]

theorem wf_execComputeDomainFailure (n : Site) (s : State) (h : s.mem.wf = true) :
    Canon (execComputeDomainFailure n s) := by
  unfold execComputeDomainFailure
  split <;> simp [wf_raiseSite, h]

@[simp] theorem loseSiteLinks_mem (s : State) (n : Nat) : (loseSiteLinks s n).mem = s.mem := by
  refine foldl_mem _ (fun t key => ?_) _ _
  dsimp only
  repeat' split
  all_goals simp

theorem wf_execSeamDomainFailure (n : Site) (s : State) (h : s.mem.wf = true) :
    Canon (execSeamDomainFailure n s) := by
  unfold execSeamDomainFailure
  split <;> simp [wf_raiseSite, h]

theorem wf_execStackChannelFailure (n : RimId) (channel : Fin 64) (s : State) (h : s.mem.wf = true) :
    Canon (execStackChannelFailure n channel s) := by
  unfold execStackChannelFailure
  split <;> simp [wf_raise, wf_loseChannel, h]

@[simp] theorem setTakeovers_mem (s : State) (l : List Takeover) : (setTakeovers s l).mem = s.mem := rfl

theorem wf_execSlateReleaseDone (n : Site) (s : State) (h : s.mem.wf = true) : Canon (execSlateReleaseDone n s) := by
  simp [execSlateReleaseDone, h]

theorem wf_reloadLine (s : State) (c to_ m line : Nat) (h : s.mem.wf = true) :
    (reloadLine s c to_ m line).mem.wf = true := wf_restoreLine _ _ _ h

theorem wf_execSlateReloadDone (n : Site) (s : State) (h : s.mem.wf = true) : Canon (execSlateReloadDone n s) := by
  unfold execSlateReloadDone
  dsimp only
  repeat' split
  all_goals simp [wf_reloadCarry, wf_raise, h]

@[simp] theorem retireLater_mem (s : State) (unit : UnitId) (kind detail lcl : Nat) :
    (retireLater s unit kind detail lcl).mem = s.mem := by
  unfold retireLater
  dsimp only
  split <;> simp

theorem wf_execHazeThresholdExceeded (c : HazeChannel) (s : State) (h : s.mem.wf = true) :
    Canon (execHazeThresholdExceeded c s) := by
  unfold execHazeThresholdExceeded
  dsimp only
  repeat' split
  all_goals simp [wf_laneFails, wf_portLaneFails, wf_closePort, h]

theorem wf_scrubHeal (s : State) (copy line : Nat) (h : s.mem.wf = true) : (scrubHeal s copy line).mem.wf = true := by
  unfold scrubHeal
  dsimp only
  repeat' split
  all_goals simp [wf_restoreLine, h]

theorem wf_execPatrolScrub (n : RimId) (line : Nat) (s : State) (h : s.mem.wf = true) :
    Canon (execPatrolScrub n line s) := by
  unfold execPatrolScrub
  dsimp only
  repeat' split
  all_goals simp [wf_healKeys, wf_scrubHeal, h]

theorem wf_execStackRefresh (n : RimId) (celsius : Int) (s : State) (h : s.mem.wf = true) :
    Canon (execStackRefresh n celsius s) := by
  simp [execStackRefresh, h]

theorem wf_execStackRetrain (n : RimId) (channel : Fin 32) (s : State) (h : s.mem.wf = true) :
    Canon (execStackRetrain n channel s) := by
  simp [execStackRetrain, h]

/-! ### The invariant of every step -/

/-- Every command keeps the form, in every state. -/
theorem canon_exec (c : Instr) (s : State) (h : s.mem.wf = true) : Canon (exec c s) := by
  cases c with
  | tickEdge => exact wf_execTickEdge _ _ _ h
  | tickInPulse => exact wf_execTickInPulse _ _ _ h
  | flywheelEdge => exact wf_execFlywheelEdge _ _ h
  | tickSourceLost => exact wf_execTickSourceLost _ h
  | beaconReceived => exact wf_execBeaconReceived _ _ _ _ _ _ _ _ h
  | censusTimeout => exact wf_execCensusTimeout _ _ h
  | domainVoteReceived => exact wf_execDomainVoteReceived _ _ _ _ _ h
  | voteWaitExpiry => exact wf_execVoteWaitExpiry _ _ h
  | frameOverrun => exact wf_execFrameOverrun _ h
  | writeOutComplete => exact wf_execWriteOutComplete _ h
  | vcoreRampDone => exact wf_execVcoreRampDone _ _ h
  | jobControlStart => exact wf_execJobControlStart _ _ h
  | jobControlEndAtCommit => exact wf_execJobControlEndAtCommit _ _ h
  | jobControlEndNow => exact wf_execJobControlEndNow _ _ h
  | serviceJobStart => exact wf_execServiceJobStart _ _ h
  | serviceJobEnd => exact wf_execServiceJobEnd _ _ h
  | jobStartCopiesDone => exact wf_execJobStartCopiesDone _ _ h
  | ownershipClaim => exact wf_execOwnershipClaim _ _ h
  | ownershipRelease => exact wf_execOwnershipRelease _ _ h
  | ownershipRevoke => exact wf_execOwnershipRevoke _ _ h
  | memoryWindowWrite => exact wf_execMemoryWindowWrite _ _ _ h
  | memoryWindowRead => exact wf_execMemoryWindowRead _ _ _ h
  | numericFlagsClear => exact wf_execNumericFlagsClear _ _ _ h
  | diagnosticArm => exact wf_execDiagnosticArm _ _ _ _ h
  | seamResetNow => exact wf_execSeamResetNow _ _ _ h
  | seamResetAtJobEnd => exact wf_execSeamResetAtJobEnd _ _ _ h
  | seamResetWithdraw => exact wf_execSeamResetWithdraw _ _ _ h
  | seamResetComplete => exact wf_execSeamResetComplete _ _ _ h
  | computeDomainReset => exact wf_execComputeDomainReset _ _ _ h
  | computeResetComplete => exact wf_execComputeResetComplete _ _ _ _ h
  | stagedFieldWrite => exact wf_execStagedFieldWrite _ _ _ _ _ h
  | stagedCommitAtTick => exact wf_execStagedCommitAtTick _ _ _ _ h
  | stagedCommitNow => exact wf_execStagedCommitNow _ _ _ h
  | stagedDiscard => exact wf_execStagedDiscard _ _ _ h
  | objectWrite => exact wf_execObjectWrite _ _ _ _ _ h
  | usdoSegment => exact wf_execUsdoSegment _ _ _ _ _ h
  | usdoTimeout => exact wf_execUsdoTimeout _ _ h
  | powerStateRun => exact wf_execPowerStateRun _ _ h
  | powerStateHold => exact wf_execPowerStateHold _ _ h
  | powerStatePark => exact wf_execPowerStatePark _ _ h
  | powerStateQuiet => exact wf_execPowerStateQuiet _ _ h
  | powerStateChangeDone => exact wf_execPowerStateChangeDone _ h
  | rackBudgetWrite => exact wf_execRackBudgetWrite _ _ _ h
  | budgetTimeout => exact wf_execBudgetTimeout _ h
  | crownWitness => exact wf_execCrownWitness _ _ _ h
  | lifetimeEnergyRead => exact wf_execLifetimeEnergyRead _ _ h
  | attestationChallenge => exact wf_execAttestationChallenge _ _ _ h
  | attestationReportReady => exact wf_execAttestationReportReady _ _ h
  | imageSetUpload => exact wf_execImageSetUpload _ _ _ h
  | activationClusterService => exact wf_execActivationClusterService _ _ h
  | activationFullRestart => exact wf_execActivationFullRestart _ _ h
  | defectListClearRequest => exact wf_execDefectListClearRequest _ _ _ h
  | managementRoutesWrite => exact wf_execManagementRoutesWrite _ _ _ h
  | managementRequest => exact wf_execManagementRequest _ _ h
  | managementForward => exact wf_execManagementForward _ _ _ h
  | nmtStart => exact wf_execNmtStart _ _ h
  | nmtEnterPreOperational => exact wf_execNmtEnterPreOperational _ _ h
  | nmtResetCommunication => exact wf_execNmtResetCommunication _ _ h
  | nmtStop d => exact wf_execNmtStop d s h
  | nmtResetNode d => exact wf_execNmtResetNode d s h
  | nmtResetApplication d => exact wf_execNmtResetApplication d s h
  | nmtHeartbeat => exact wf_execNmtHeartbeat _ _ h
  | crownHeartbeat => exact wf_execCrownHeartbeat _ _ h
  | emcySend => exact wf_execEmcySend _ _ h
  | engineWordIssue => exact wf_execEngineWordIssue _ _ h
  | nop => exact wf_execNop _ _ h
  | seti => exact wf_execSeti _ _ h
  | addi => exact wf_execAddi _ _ h
  | br => exact wf_execBr _ _ h
  | loop => exact wf_execLoop _ _ h
  | testf => exact wf_execTestf _ _ h
  | clrf => exact wf_execClrf _ _ h
  | boil => exact wf_execBoil _ _ h
  | yield => exact wf_execYield _ _ h
  | fend => exact wf_execFend _ _ h
  | halt => exact wf_execHalt _ _ h
  | taskSwitch => exact wf_execTaskSwitch _ _ h
  | taskSwitchTimeout => exact wf_execTaskSwitchTimeout _ _ h
  | fnop => exact wf_execFnop _ _ _ h
  | fmm => exact wf_execFmm _ _ _ h
  | fload => exact wf_execFload _ _ _ h
  | fdrain => exact wf_execFdrain _ _ _ h
  | fclear => exact wf_execFclear _ _ _ h
  | gnop => exact wf_execGnop _ _ _ h
  | gmm => exact wf_execGmm _ _ _ h
  | gload => exact wf_execGload _ _ _ h
  | gdrain => exact wf_execGdrain _ _ _ h
  | gclear => exact wf_execGclear _ _ _ h
  | gmerge => exact wf_execGmerge _ _ _ h
  | gmpush => exact wf_execGmpush _ _ _ h
  | gmpop => exact wf_execGmpop _ _ _ h
  | galt => exact wf_execGalt _ _ _ h
  | mashSpillDone => exact wf_execMashSpillDone _ _ _ h
  | mashPrefetchArrival => exact wf_execMashPrefetchArrival _ _ _ h
  | unop => exact wf_execUnop _ _ h
  | uapply => exact wf_execUapply _ _ h
  | ucast => exact wf_execUcast _ _ h
  | vnop => exact wf_execVnop _ _ _ h
  | vld => exact wf_execVld _ _ _ h
  | vst => exact wf_execVst _ _ _ h
  | vbin => exact wf_execVbin _ _ _ h
  | vfma => exact wf_execVfma _ _ _ h
  | vun => exact wf_execVun _ _ _ h
  | vcmp => exact wf_execVcmp _ _ _ h
  | vsel => exact wf_execVsel _ _ _ h
  | vred => exact wf_execVred _ _ _ h
  | vcvt => exact wf_execVcvt _ _ _ h
  | vldl => exact wf_execVldl _ _ _ h
  | vstl => exact wf_execVstl _ _ _ h
  | mnop => exact wf_execMnop _ _ _ h
  | mcopy => exact wf_execMcopy _ _ _ h
  | madd => exact wf_execMadd _ _ _ h
  | msigAdd => exact wf_execMsigAdd _ _ _ h
  | msigSubtract => exact wf_execMsigSubtract _ _ _ h
  | msigSet => exact wf_execMsigSet _ _ _ h
  | msigRelay => exact wf_execMsigRelay _ _ _ h
  | instructionComplete => exact wf_execInstructionComplete _ _ _ _ h
  | syncSignalArrival => exact wf_execSyncSignalArrival _ _ h
  | relaySignalApply => exact wf_execRelaySignalApply _ _ h
  | bulkWriteReceived => exact wf_execBulkWriteReceived _ _ h
  | mergeWriteReceived => exact wf_execMergeWriteReceived _ _ h
  | bulkReadReceived => exact wf_execBulkReadReceived _ _ h
  | readDataReceived => exact wf_execReadDataReceived _ _ h
  | bulkAckReceived => exact wf_execBulkAckReceived _ _ h
  | rateRaise => exact wf_execRateRaise _ _ h
  | treeContributionReceived => exact wf_execTreeContributionReceived _ _ h
  | ordPacketRelease => exact wf_execOrdPacketRelease _ _ h
  | arrayCheckEvent => exact wf_execArrayCheckEvent _ _ _ _ _ _ _ h
  | slateReleaseDone => exact wf_execSlateReleaseDone _ _ h
  | slateReloadDone => exact wf_execSlateReloadDone _ _ h
  | dataError => exact wf_execDataError _ _ h
  | computeDomainFailure => exact wf_execComputeDomainFailure _ _ h
  | seamDomainFailure => exact wf_execSeamDomainFailure _ _ h
  | stackChannelFailure => exact wf_execStackChannelFailure _ _ _ h
  | hazeThresholdExceeded => exact wf_execHazeThresholdExceeded _ _ h
  | patrolScrub => exact wf_execPatrolScrub _ _ _ h
  | stackRefresh => exact wf_execStackRefresh _ _ _ h
  | stackRetrain n channel => exact wf_execStackRetrain n channel s h
  | seamFlitReceived => exact wf_execSeamFlitReceived _ _ _ _ h
  | seamLaneFailure => exact wf_execSeamLaneFailure _ _ _ h
  | linkPauseEnd => exact wf_execLinkPauseEnd _ _ h
  | seamHealthUpdate => exact wf_execSeamHealthUpdate _ _ _ h
  | seamDrainComplete => exact wf_execSeamDrainComplete _ _ h
  | seamDrainTimeout => exact wf_execSeamDrainTimeout _ _ h
  | fabricCodewordReceived => exact wf_execFabricCodewordReceived _ _ _ h
  | fabricPacketReceived => exact wf_execFabricPacketReceived _ _ _ _ h
  | fabricLaneFailure => exact wf_execFabricLaneFailure _ _ _ h
  | fabricHealthUpdate => exact wf_execFabricHealthUpdate _ _ _ _ h
  | portDrainComplete => exact wf_execPortDrainComplete _ _ h
  | portDrainTimeout => exact wf_execPortDrainTimeout _ _ h
  | powerGood => exact wf_execPowerGood _ _ _ h
  | startUpAgreement => exact wf_execStartUpAgreement _ _ _ h
  | firmwareChunkReceived => exact wf_execFirmwareChunkReceived _ _ _ _ h
  | endOfPassReceived => exact wf_execEndOfPassReceived _ _ _ _ h
  | repairRequestReceived => exact wf_execRepairRequestReceived _ _ _ _ h
  | protectiveTrip => exact wf_execProtectiveTrip _ _ _ h
  | droopTrip => exact wf_execDroopTrip _ _ _ _ h
  | droopHoldExpiry => exact wf_execDroopHoldExpiry _ _ h
  | controlStep => exact wf_execControlStep _ _ h
  | calibrationWindow => exact wf_execCalibrationWindow _ _ h
  | energyIntegration => exact wf_execEnergyIntegration _ _ _ h
  | lifetimeEnergySave => exact wf_execLifetimeEnergySave _ h
  | lowFlowWarning => exact wf_execLowFlowWarning _ _ h
  | crownRenewal => exact wf_execCrownRenewal _ h
  | crownRenewalReceived => exact wf_execCrownRenewalReceived _ h
  | crownTake => exact wf_execCrownTake _ _ h
  | crownUnconfirmed => exact wf_execCrownUnconfirmed _ _ h
  | crossHalfCommand => exact wf_execCrossHalfCommand _ h
  | crossHalfTimeout => exact wf_execCrossHalfTimeout _ h
  | submit => exact wf_execSubmit _ _ _ h
  | prompt => exact wf_execPrompt _ _ h
  | ack => exact wf_execAck _ _ h
  | cancel => exact wf_execCancel _ _ h
  | tokensResend => exact wf_execTokensResend _ _ h
  | promptTimeout => exact wf_execPromptTimeout _ _ h
  | queueWaitExpiry => exact wf_execQueueWaitExpiry _ _ h
  | batchAdmission => exact wf_execBatchAdmission _ h
  | pageIn => exact wf_execPageIn _ _ _ h
  | pageOut => exact wf_execPageOut _ _ _ h
  | sampleToken => exact wf_execSampleToken _ _ h
  | serviceCutoff => exact wf_execServiceCutoff _ h
  | neighbourSolicitation => exact wf_execNeighbourSolicitation _ _ _ _ _ h
  | echoRequest => exact wf_execEchoRequest _ _ _ _ _ h
  | lossOfInput => exact wf_execLossOfInput _ h
  | southMaltsterClaims => exact wf_execSouthMaltsterClaims _ h
  | selfTestComplete => exact wf_execSelfTestComplete _ _ _ h
  | fabricPortTrained => exact wf_execFabricPortTrained _ _ _ _ _ h
  | ethernetLinkDown => exact wf_execEthernetLinkDown _ _ h
  | ethernetLinkUp => exact wf_execEthernetLinkUp _ _ h
  | discardedDatagram => exact wf_execDiscardedDatagram _ _ _ h
  | inletAbove45C => exact wf_execInletAbove45C _ _ h

/-- Settles O4: the front command of the queue keeps the form by `canon_exec`, and an idle step changes nothing. -/
theorem everyStepKeepsMemoryCanonical : Obligations.EveryStepKeepsMemoryCanonical := by
  unfold Obligations.EveryStepKeepsMemoryCanonical
  intro s t h ht
  unfold step at ht
  split at ht
  · cases ht
    exact h
  · rename_i c rest _
    have hc := canon_exec c { s with pending := rest } h
    rw [ht] at hc
    exact hc

/-- Settles O3: reset lists no byte. -/
theorem resetMemoryIsCanonical : Obligations.ResetMemoryIsCanonical := rfl

/-! ### What reset leaves -/

/-- With 4 as the slate column of every row, the slates are the sites of column 4 (R13). -/
theorem isSlatePos_reset (n : Nat) (hn : n < 72) : isSlatePos State.reset.topo n = true ↔ n % 9 = 4 := by
  revert n
  decide

/-- Settles O2: each field of `State.reset` is read off, and a row's slate stands in column 4. -/
theorem resetLeavesEveryDefault : Obligations.ResetLeavesEveryDefault := by
  unfold Obligations.ResetLeavesEveryDefault
  have hsite : ∀ n, n < 72 → (siteAt State.reset n).state = (if n % 9 = 4 then .slateIdle else .running) := by
    intro n hn
    show (if isSlatePos State.reset.topo n then SiteState.slateIdle else .running) = _
    simp only [isSlatePos_reset n hn]
  refine ⟨rfl, rfl, rfl, rfl, rfl, rfl, rfl, rfl, rfl, rfl, rfl, rfl, rfl, rfl, rfl, rfl, rfl, rfl, rfl, rfl, rfl,
    isSlatePos_reset, hsite, fun _ => rfl, rfl, rfl⟩

end Sys2Proof.Machine

/-! ## A reload does not reach a byte that an earlier frame wrote as scratch (02 R44, 08 R238)

`written` marks stack scratch, and no command marks another byte, but the statement is made for every state: where a
mark of an earlier epoch stands under a byte of the slate, a reload brings the byte and keeps the mark, and a read of
the running job returns a free value. -/

namespace Sys2Proof.Machine
open Sys2Proof

/-- A byte marked in an earlier frame reads as a free value while the job runs, whatever its cell holds. -/
theorem paleByte_of_stale {s : State} {key e : Nat} (hmark : tfind s.mem.written key = some e) (he : e ≠ s.mem.epoch)
    (hrun : s.job.state = .running) : paleByte s key = Config.freeByte (s.mem.epoch + 1) key := by
  simp [paleByte, hmark, he, jobRunning, hrun]

theorem restoreLine_written (s : State) (line : Nat) (bs : List Byte) :
    (restoreLine s line bs).mem.written = s.mem.written := by
  unfold restoreLine
  dsimp only
  split <;> rfl

theorem restoreLine_epoch (s : State) (line : Nat) (bs : List Byte) :
    (restoreLine s line bs).mem.epoch = s.mem.epoch := by
  unfold restoreLine
  dsimp only
  split <;> rfl

/-- A reload keeps every mark of written scratch, and the epoch. -/
theorem reloadLines_marks (n m : Nat) (lines : List Nat) (s : State) :
    (reloadLines n m lines s).1.mem.written = s.mem.written ∧ (reloadLines n m lines s).1.mem.epoch = s.mem.epoch := by
  induction lines generalizing s with
  | nil => exact ⟨rfl, rfl⟩
  | cons line rest ih =>
    unfold reloadLines
    cases goodCopy s [1, 2] line with
    | none => exact ⟨rfl, rfl⟩
    | some c =>
      obtain ⟨hw, he⟩ := ih (reloadLine s c n m line)
      exact ⟨hw.trans (restoreLine_written ..), he.trans (restoreLine_epoch ..)⟩

theorem reloadCarry_marks (s : State) (failed n m : Nat) :
    (reloadCarry s failed n m).1.mem.written = s.mem.written ∧ (reloadCarry s failed n m).1.mem.epoch = s.mem.epoch :=
  reloadLines_marks n m _ (clearPads (clearPads s failed) n)

/-- A reload that finds a good copy of every line ends with the memory that `reloadCarry` leaves. -/
theorem execSlateReloadDone_mem {s t : State} {n : Site} {x : Takeover}
    (hx : s.tick.recovery.takeovers.find? (fun y => y.slate == n.val && y.released) = some x)
    (hgood : (reloadCarry s x.failed n.val x.chiplet).2 = none) (ht : exec (.slateReloadDone n) s = .next t) :
    t.mem = (reloadCarry s x.failed n.val x.chiplet).1.mem := by
  have hexec : exec (.slateReloadDone n) s = execSlateReloadDone n s := rfl
  simp only [hexec, execSlateReloadDone, hx, hgood, Host.Outcome.next.injEq] at ht
  subst ht
  rfl

/-- The key of an address depends on the remap table alone. -/
theorem memKey_of_topo {s t : State} (h : t.topo = s.topo) (a : Nat) : memKey t a = memKey s a := by
  have hsite (k : Nat) : clusterSite t k = clusterSite s k := by
    unfold clusterSite chipletSite remapAt
    rw [h]
  unfold memKey
  cases placeOf a with
  | pad k off => simp only [hsite]
  | stack | clusterPage | chipletPage | rimPage | reserved => rfl

/-! ### The counterexample -/

/-- A byte that differs from the free value which the mark in `staleMark` makes a read return. -/
def staleCopyByte : Byte := Config.freeByte 2 padBase + 1

/-- A running job whose chiplet 0 the slate at site 0 has taken over, its release done. The primary backing copy of the
first scratchpad byte lists a byte, and that byte of the slate is marked as scratch of an earlier epoch. -/
def staleMark : State := { State.reset with
  job := { State.reset.job with state := .running }
  tick := { State.reset.tick with recovery := { State.reset.tick.recovery with
    takeovers := [{ chiplet := 0, failed := 1, slate := 0, released := true }] } }
  topo := { State.reset.topo with remap := [(0, { site := 0, valid := true, subst := true })] }
  mem := { State.reset.mem with
    cells := [(copyKey 1 padBase, staleCopyByte)], written := [(padBase, 0)], epoch := 1 } }

theorem backedLines_staleMark : backedLines staleMark 0 = [padBase / 64] := by decide +kernel

theorem goodCopy_staleMark : goodCopy staleMark [1, 2] (padBase / 64) = some 1 := by decide +kernel

theorem memKey_staleMark : memKey staleMark padBase = padBase := by decide +kernel

theorem committedByte_staleMark : committedByte staleMark (copyKey 1 padBase) = staleCopyByte := rfl

/-- The copy is in the pale bank, and so is the line that it is brought to. -/
theorem reloadCarry_staleMark :
    (reloadCarry staleMark 1 0 0).2 = none ∧
      (reloadCarry staleMark 1 0 0).1.mem.darkIn.contains (padBase / 64) = false := by
  decide +kernel

/-- After the reload the slate's byte still reads as a free value. -/
theorem readByte_of_reload_staleMark {t : State} (ht : exec (.slateReloadDone 0) staleMark = .next t)
    (hjob : t.job = staleMark.job) (htopo : t.topo = staleMark.topo) :
    readByte t padBase = Config.freeByte 2 padBase := by
  obtain ⟨hgood, hpale⟩ := reloadCarry_staleMark
  obtain ⟨hwritten, hepoch⟩ := reloadCarry_marks staleMark 1 0 0
  have hmem : t.mem = (reloadCarry staleMark 1 0 0).1.mem := 
    execSlateReloadDone_mem (n := 0) (x := { chiplet := 0, failed := 1, slate := 0, released := true }) rfl hgood ht
  have hmark : tfind t.mem.written padBase = some 0 := by rw [hmem, hwritten]; rfl
  have hnow : t.mem.epoch = 1 := by rw [hmem, hepoch]; rfl
  have hrun : t.job.state = .running := by rw [hjob]; rfl
  calc readByte t padBase = committedByte t padBase := by rw [readByte, memKey_of_topo htopo, memKey_staleMark]
    _ = paleByte t padBase := by simp only [committedByte, hmem, hpale, Bool.false_eq_true, if_false]
    _ = Config.freeByte 2 padBase := by rw [paleByte_of_stale hmark (by omega) hrun, hnow]

theorem staleCopyByte_ne : Config.freeByte 2 padBase ≠ staleCopyByte := by
  unfold staleCopyByte
  bv_omega

/-- Refutes O54: its clause on the bytes of a reloaded line fails in `staleMark`, where a byte of the slate is marked
as scratch of an earlier epoch; the statement asks only that the cells rise, and says nothing of `written`. -/
theorem not_failedDomainsAreRetiredAndTheirCarryReloaded :
    ¬ Obligations.FailedDomainsAreRetiredAndTheirCarryReloaded := by
  unfold Obligations.FailedDomainsAreRetiredAndTheirCarryReloaded
  rintro ⟨-, hreload⟩
  obtain ⟨-, hfound, -⟩ := hreload staleMark 0 { chiplet := 0, failed := 1, slate := 0, released := true }
  obtain ⟨hall, -⟩ := hfound rfl
  have hcopies : ∀ line ∈ backedLines staleMark 0, goodCopy staleMark [1, 2] line ≠ none := by
    simp [backedLines_staleMark, goodCopy_staleMark]
  obtain ⟨t, ht, -, hjob, htopo, -, -, hbytes⟩ := hall hcopies
  have hread : readByte t padBase = staleCopyByte :=
    (hbytes rfl rfl (padBase / 64) (by simp [backedLines_staleMark]) 1 goodCopy_staleMark 0 (by decide)).trans
      committedByte_staleMark
  exact staleCopyByte_ne ((readByte_of_reload_staleMark ht hjob htopo).symm.trans hread)

end Sys2Proof.Machine

/-! ## Frames of an engine's effect (04 R98, 07 R193)

What an effect inside the cluster keeps: the frames `StartedInside` and `FlagsOnly` through a change of the engine's own
record and through the flags, and the tile registers. -/

namespace Sys2Proof.Machine
open Sys2Proof

/-! ### What a change of clusters leaves of checks and reads -/

theorem firstFault_of_onlyCluster {s t : State} {k : Nat} (h : Claim.OnlyCluster s t k) (rs : List Range) :
    firstFault t rs = firstFault s rs := by
  induction rs with
  | nil => rfl
  | cons r rs ih =>
    have hr : r.fault t = r.fault s := by rw [h.1]; rfl
    simp only [firstFault, hr, ih]

theorem readBytes_of_onlyCluster {s t : State} {k : Nat} (h : Claim.OnlyCluster s t k) (a n : Nat) :
    readBytes t a n = readBytes s a n := by rw [h.1]; rfl

theorem accessible_of_onlyCluster {s t : State} {k : Nat} {rs : List Range} (h : Claim.OnlyCluster s t k)
    (ha : Claim.Accessible s rs) : Claim.Accessible t rs := by
  obtain ⟨hfault, hclean⟩ := ha
  refine ⟨(firstFault_of_onlyCluster h rs).trans hfault, fun p hp => ?_⟩
  have hkey : upsetsIn t.mem 0 (memKey t p.1) p.2 = upsetsIn s.mem 0 (memKey s p.1) p.2 := by rw [h.1]; rfl
  exact hkey.trans (hclean p hp)

/-! ### Frames through an engine's record and through the flags -/

theorem engineAt_modEngine_ne (s : State) (k e d : Nat) (f : EngineRec → EngineRec) (h : d ≠ e) :
    engineAt (modEngine s k e f) k d = engineAt s k d := by
  simp [engineAt, modEngine, clusterAt_modCluster_self, Cluster.engine_modEngine_ne _ _ _ _ h]

@[simp] theorem engineAt_setFlags (s : State) (k task e : Nat) (f : Flags) :
    engineAt (setFlags s k task f) k e = engineAt s k e := by
  rw [engineAt, setFlags, clusterAt_modCluster_self]
  rfl

theorem syncObj_modEngine (s : State) (k e j : Nat) (f : EngineRec → EngineRec) :
    (clusterAt (modEngine s k e f) k).syncObj j = (clusterAt s k).syncObj j := by
  rw [modEngine, clusterAt_modCluster_self]
  rfl

/-- `Started` speaks of the engines and the objects of the cluster only; of the started engine, of its queue and of what
is in flight. -/
theorem started_congr {s u t : State} {k e : Nat} {q : QInstr} (h : Claim.Started s u k e q)
    (hqueue : (engineAt t k e).queue = (engineAt u k e).queue)
    (hflight : (engineAt t k e).flight = (engineAt u k e).flight)
    (hengine : ∀ d, d ≠ e → engineAt t k d = engineAt u k d)
    (hsync : ∀ j, (clusterAt t k).syncObj j = (clusterAt u k).syncObj j) : Claim.Started s t k e q := by
  obtain ⟨h1, h2, h3, h4, h5, h6⟩ := h
  refine ⟨hqueue.trans h1, hflight.trans h2, fun j hj => (hsync j).trans (h3 j hj),
    fun j n hj => (hsync j).trans (h4 j n hj), fun d hd => ?_, fun hn d hd => (hengine d hd).trans (h6 hn d hd)⟩
  unfold Claim.SameButMet
  rw [hengine d hd]
  exact h5 d hd

theorem startedInside_modEngine {s u : State} {k e : Nat} {q : QInstr} (h : Claim.StartedInside s u k e q)
    (f : EngineRec → EngineRec) (hqueue : ∀ r, (f r).queue = r.queue) (hflight : ∀ r, (f r).flight = r.flight) :
    Claim.StartedInside s (modEngine u k e f) k e q := by
  obtain ⟨honly, hstart⟩ := h
  refine ⟨onlyCluster_trans honly (onlyCluster_modCluster u k _), started_congr hstart ?_ ?_
    (fun d hd => engineAt_modEngine_ne u k e d f hd) (fun j => syncObj_modEngine u k e j f)⟩
  · rw [engineAt_modEngine_self, hqueue]
  · rw [engineAt_modEngine_self, hflight]

theorem started_setFlags {s u : State} {k e : Nat} {q : QInstr} (h : Claim.Started s u k e q) (task : Nat) (f : Flags) :
    Claim.Started s (setFlags u k task f) k e q := by
  refine started_congr h ?_ ?_ (fun d _ => engineAt_setFlags u k task d f) (fun j => ?_)
  · rw [engineAt_setFlags]
  · rw [engineAt_setFlags]
  · rw [setFlags, clusterAt_modCluster_self]
    rfl

theorem startedInside_setFlags {s u : State} {k e : Nat} {q : QInstr} (h : Claim.StartedInside s u k e q) (task : Nat)
    (f : Flags) : Claim.StartedInside s (setFlags u k task f) k e q :=
  ⟨onlyCluster_trans h.1 (onlyCluster_modCluster u k _), started_setFlags h.2 task f⟩

theorem flagsOnly_modEngine {s u : State} {k e task : Nat} {g : Flags} (h : Claim.FlagsOnly s u k task g)
    (f : EngineRec → EngineRec) : Claim.FlagsOnly s (modEngine u k e f) k task g := by
  obtain ⟨hflags, hothers, htask, hrest⟩ := h
  have hc : clusterAt (modEngine u k e f) k = (clusterAt u k).modEngine e f := by
    rw [modEngine, clusterAt_modCluster_self]
  unfold Claim.FlagsOnly
  rw [hc]
  refine ⟨hflags, hothers, htask, ?_⟩
  exact congrArg (fun c : Cluster => c.modEngine e f) hrest

/-- A task with flags set in its TFLAGS. -/
def flagTask (f : Flags) (t : Task) : Task := { t with tflags := t.tflags ||| f }

theorem clusterAt_setFlags (s : State) (k task : Nat) (f : Flags) :
    clusterAt (setFlags s k task f) k =
      { (clusterAt s k).modTask task (flagTask f) with flags := (clusterAt s k).flags ||| f } := by
  rw [setFlags, clusterAt_modCluster_self]
  rfl

/-- Flags set where the tasks are still those of the beginning. -/
theorem flagsOnly_setFlags {s u : State} {k task : Nat} (h : Claim.FlagsOnly s u k task 0)
    (htasks : (clusterAt u k).tasks = (clusterAt s k).tasks) (f : Flags) :
    Claim.FlagsOnly s (setFlags u k task f) k task f := by
  obtain ⟨hflags, -, -, hrest⟩ := h
  have htask : ∀ n, (clusterAt u k).task n = (clusterAt s k).task n := fun n => by simp only [Cluster.task, htasks]
  unfold Claim.FlagsOnly
  rw [clusterAt_setFlags]
  refine ⟨?_, fun n hn => ?_, fun hhas => ?_, ?_⟩
  · simp [hflags]
  · exact (Cluster.task_modTask_ne _ task n (flagTask f) (fun _ => rfl) hn).trans (htask n)
  · have hself : (clusterAt u k).hasTask task = true := by rw [Cluster.hasTask, htasks]; exact hhas
    exact (Cluster.task_modTask_self _ task (flagTask f) (fun _ => rfl) hself).trans (by rw [htask]; rfl)
  · exact congrArg (fun c : Cluster => { c.modTask task (flagTask f) with flags := c.flags ||| f }) hrest

theorem tasks_startInstr (s : State) (k e n : Nat) (q : QInstr) :
    (clusterAt (startInstr s k e q n) k).tasks = (clusterAt s k).tasks := by
  rw [clusterAt_startInstr, (waitsOnly_joinHead _ e).1]
  rfl

/-! ### Tile registers (07 R193) -/

theorem tileReg_congr {s t : State} {k e : Nat} (htiles : (engineAt t k e).tiles = (engineAt s k e).tiles)
    (hepoch : t.mem.epoch = s.mem.epoch) (r : Nat) : tileReg t k e r = tileReg s k e r := by
  simp only [tileReg, htiles, hepoch]

@[simp] theorem tileReg_startInstr (s : State) (k e n r : Nat) (q : QInstr) :
    tileReg (startInstr s k e q n) k e r = tileReg s k e r := by
  have htiles : (engineAt (startInstr s k e q n) k e).tiles = (engineAt s k e).tiles := by
    rw [startInstr_engine, launched, Cluster.engine_modEngine_self]
    rfl
  exact tileReg_congr htiles rfl r

@[simp] theorem tileReg_setFlags (s : State) (k e task r : Nat) (f : Flags) :
    tileReg (setFlags s k task f) k e r = tileReg s k e r :=
  tileReg_congr (congrArg EngineRec.tiles (engineAt_setFlags s k task e f)) rfl r

theorem tileReg_modEngine (s : State) (k e r : Nat) (f : EngineRec → EngineRec) (h : ∀ x, (f x).tiles = x.tiles) :
    tileReg (modEngine s k e f) k e r = tileReg s k e r :=
  tileReg_congr ((congrArg EngineRec.tiles (engineAt_modEngine_self s k e f)).trans (h _)) rfl r

theorem tiles_putTile (s : State) (k e r : Nat) (t : List Word) :
    (engineAt (putTile s k e r t) k e).tiles = tset (engineAt s k e).tiles r t := by
  rw [putTile, engineAt_modEngine_self]

@[simp] theorem tileReg_putTile_self (s : State) (k e r : Nat) (t : List Word) : tileReg (putTile s k e r t) k e r = t := by
  simp only [tileReg, tiles_putTile, tfind_tset_self]

theorem tileReg_putTile_ne (s : State) (k e r i : Nat) (t : List Word) (h : i ≠ r) :
    tileReg (putTile s k e r t) k e i = tileReg s k e i := by
  simp only [tileReg, tiles_putTile, tfind_tset_ne _ _ _ _ h]
  rfl

end Sys2Proof.Machine

/-! ## The frame of writes to scratchpad (02 R52, 08 R235)

`Claim.InsidePad` is an equivalence, and what decides a route and the place of a written byte is the same throughout it.
So carry lines that can reach their backing stacks change no byte on their way, and the same writes leave the same memory
in the state that an instruction finds and in the state that its start leaves. -/

namespace Sys2Proof.Machine
open Sys2Proof

/-! ### The frame of a write to scratchpad: an equivalence -/

theorem insidePad_refl (s : State) (k : Nat) : Claim.InsidePad s s k := ⟨rfl, fun _ _ => rfl, fun _ => rfl⟩

theorem insidePad_symm {s t : State} {k : Nat} (h : Claim.InsidePad s t k) : Claim.InsidePad t s k := by
  obtain ⟨hstate, hclusters, hsites⟩ := h
  refine ⟨?_, fun j hj => (hclusters j hj).symm, fun n => ?_⟩
  · rw [hstate]
  · rw [hsites n]

theorem insidePad_trans {s u t : State} {k : Nat} (h : Claim.InsidePad s u k) (g : Claim.InsidePad u t k) :
    Claim.InsidePad s t k := by
  obtain ⟨hstate, hclusters, hsites⟩ := h
  obtain ⟨gstate, gclusters, gsites⟩ := g
  refine ⟨?_, fun j hj => (gclusters j hj).trans (hclusters j hj), fun n => ?_⟩
  · rw [gstate, hstate]
  · rw [gsites n, hsites n]

theorem insidePad_of_onlyCluster {s t : State} {k : Nat} (h : Claim.OnlyCluster s t k) : Claim.InsidePad s t k := by
  obtain ⟨hstate, hclusters⟩ := h
  refine ⟨?_, hclusters, fun n => ?_⟩
  · rw [hstate]
  · rw [hstate]; rfl

theorem insidePad_of_mem {s t : State} {m : Memory} (h : t = { s with mem := m }) (k : Nat) : Claim.InsidePad s t k := by
  subst h
  exact ⟨rfl, fun _ _ => rfl, fun _ => rfl⟩

/-! ### What it keeps: the routes of the panel (10 R274) -/

section
variable {s t : State} {k : Nat} (h : Claim.InsidePad s t k)
include h

theorem maskOf_of_insidePad (u : Nat) : maskOf t u = maskOf s u := by rw [h.1]; rfl

theorem healthy_of_insidePad (src key : Nat) : healthy t src key = healthy s src key := by
  have hstate : ∀ u, (siteAt t u).state = (siteAt s u).state := fun u => by
    obtain ⟨-, -, hsites⟩ := h
    rw [hsites u]
  have hdark : ∀ u, isDark t u = isDark s u := fun u => by simp only [isDark, hstate]
  simp only [healthy, hdark, maskOf_of_insidePad h]

theorem awaitsBoth_of_insidePad (src : Nat) (way : List Nat) : awaitsBoth t src way = awaitsBoth s src way := by
  simp only [awaitsBoth, maskOf_of_insidePad h, healthy_of_insidePad h]

theorem chooseLeg_of_insidePad (src link : Nat) (l : RingLeg) : chooseLeg t src link l = chooseLeg s src link l := by
  have hhealthy : healthy t src = healthy s src := funext (healthy_of_insidePad h src)
  simp only [chooseLeg, hhealthy, awaitsBoth_of_insidePad h]

theorem chooseLegs_of_insidePad (src link : Nat) (ls : List RingLeg) :
    chooseLegs t src link ls = chooseLegs s src link ls := by
  induction ls with
  | nil => rfl
  | cons l r ih => simp only [chooseLegs, chooseLeg_of_insidePad h, ih]

theorem passage_of_insidePad (a b u : Nat) : passage t a b u = passage s a b u := by
  have hroute : findRoute t a b u = findRoute s a b u := by simp only [findRoute, chooseLegs_of_insidePad h]
  have hclosed : crossesClosed t a = crossesClosed s a := by funext hops; simp only [crossesClosed, maskOf_of_insidePad h]
  simp only [passage, hroute, hclosed]

/-! ### What it keeps: how a byte is written (02 R52) -/

theorem keyAddr_of_insidePad (key : Nat) : keyAddr t key = keyAddr s key := by
  have hlogical : ∀ n, (siteAt t n).logical = (siteAt s n).logical := fun n => by
    obtain ⟨-, -, hsites⟩ := h
    rw [hsites n]
  simp only [keyAddr, hlogical]

theorem regionOf_of_insidePad (a : Nat) : regionOf t a = regionOf s a := by rw [h.1]; rfl

theorem memKey_of_insidePad (a : Nat) : memKey t a = memKey s a := by rw [h.1]; rfl

theorem rideThrough_of_insidePad : rideThrough t = rideThrough s := by rw [h.1]; rfl

theorem jobRunning_of_insidePad : jobRunning t = jobRunning s := by rw [h.1]; rfl

theorem jobHeld_of_insidePad : jobHeld t = jobHeld s := by rw [h.1]; rfl

variable (hm : t.mem = s.mem)
include hm

theorem freeAt_of_insidePad (key : Nat) : freeAt t key = freeAt s key := by
  have hcarry : ∀ x, keyInCarry t x = keyInCarry s x := fun x => by
    simp only [keyInCarry, keyAddr_of_insidePad h, regionOf_of_insidePad h]
  simp only [freeAt, hcarry, memKey_of_insidePad h, hm]

theorem paleByte_of_insidePad (key : Nat) : paleByte t key = paleByte s key := by
  simp only [paleByte, hm, jobRunning_of_insidePad h, freeAt_of_insidePad h hm]

theorem darkByte_of_insidePad (key : Nat) : darkByte t key = darkByte s key := by
  simp only [darkByte, hm, freeAt_of_insidePad h hm]

theorem mergeLine_of_insidePad (line : Nat) : mergeLine t line = mergeLine s line := by
  simp only [mergeLine, hm, darkByte_of_insidePad h hm, paleByte_of_insidePad h hm]

theorem writeByte_mem_of_insidePad (a : Nat) (b : Byte) : (writeByte t a b).mem = (writeByte s a b).mem := by
  have hput : ∀ key, (putUncommitted t key b).mem = (putUncommitted s key b).mem := fun key => by
    simp only [putUncommitted, hm, mergeLine_of_insidePad h hm]
  simp only [writeByte, rideThrough_of_insidePad h, jobHeld_of_insidePad h, jobRunning_of_insidePad h,
    regionOf_of_insidePad h, memKey_of_insidePad h, apply_ite State.mem, hput, hm]

end

/-! ### Bytes written (02 R52) -/

/-- A byte written changes memory alone. -/
theorem writeByte_eq (s : State) (a : Nat) (b : Byte) : writeByte s a b = { s with mem := (writeByte s a b).mem } := by
  unfold writeByte
  dsimp only
  split
  · rfl
  · split <;> rfl

theorem memOnly_trans {s u t : State} (h : u = { s with mem := u.mem }) (g : t = { u with mem := t.mem }) :
    t = { s with mem := t.mem } := g.trans (congrArg (fun x : State => { x with mem := t.mem }) h)

theorem writeBytes_eq (s : State) (a : Nat) (bs : List Byte) :
    writeBytes s a bs = { s with mem := (writeBytes s a bs).mem } := by
  induction bs generalizing s a with
  | nil => rfl
  | cons b r ih => exact memOnly_trans (writeByte_eq s a b) (ih (writeByte s a b) (a + 1))

@[simp] theorem putPale_epoch (m : Memory) (key : Nat) (b : Byte) : (putPale m key b).epoch = m.epoch := rfl

@[simp] theorem putDark_epoch (m : Memory) (key : Nat) (b : Byte) : (putDark m key b).epoch = m.epoch := rfl

@[simp] theorem mergeLine_epoch (s : State) (line : Nat) : (mergeLine s line).epoch = s.mem.epoch := by
  unfold mergeLine
  dsimp only
  split <;> rfl

@[simp] theorem putUncommitted_epoch (s : State) (key : Nat) (b : Byte) :
    (putUncommitted s key b).mem.epoch = s.mem.epoch := by
  unfold putUncommitted
  dsimp only
  split <;> split <;> simp

@[simp] theorem writeByte_epoch (s : State) (a : Nat) (b : Byte) : (writeByte s a b).mem.epoch = s.mem.epoch := by
  unfold writeByte
  dsimp only
  split
  · simp
  · split <;> rfl

theorem writeBytes_epoch (s : State) (a : Nat) (bs : List Byte) : (writeBytes s a bs).mem.epoch = s.mem.epoch := by
  induction bs generalizing s a with
  | nil => rfl
  | cons b r ih => exact (ih (writeByte s a b) (a + 1)).trans (writeByte_epoch s a b)

theorem writeBytes_insidePad (s : State) (k a : Nat) (bs : List Byte) : Claim.InsidePad s (writeBytes s a bs) k :=
  insidePad_of_mem (writeBytes_eq s a bs) k

theorem writeBytes_mem_of_insidePad {s t : State} {k : Nat} (h : Claim.InsidePad s t k) (hm : t.mem = s.mem) (a : Nat)
    (bs : List Byte) : (writeBytes t a bs).mem = (writeBytes s a bs).mem := by
  induction bs generalizing s t a with
  | nil => exact hm
  | cons b r ih =>
    have hs : Claim.InsidePad s (writeByte s a b) k := insidePad_of_mem (writeByte_eq s a b) k
    have ht : Claim.InsidePad t (writeByte t a b) k := insidePad_of_mem (writeByte_eq t a b) k
    exact ih (insidePad_trans (insidePad_symm hs) (insidePad_trans h ht)) (writeByte_mem_of_insidePad h hm a b) (a + 1)

/-! ### Carry lines on their way to their backing copies (08 R235) -/

/-- In ride-through mode each stack can be reached from a cluster (10 R274). -/
def StacksReached (s : State) (k : Nat) : Prop :=
  rideThrough s = true → ∀ n, n < 16 → passage s (clusterHome s k) (72 + n) 0 ≠ .unreachable

theorem stacksReached_of_carryFlows {s : State} {k : Nat} (h : Claim.CarryFlows s k) : StacksReached s k :=
  fun hride => (h hride).2

theorem stacksReached_of_insidePad {s t : State} {k : Nat} (h : Claim.InsidePad s t k) (hs : StacksReached s k) :
    StacksReached t k := by
  intro hride n hn
  have hhome : clusterHome t k = clusterHome s k := by rw [h.1]; rfl
  rw [passage_of_insidePad h, hhome]
  exact hs ((rideThrough_of_insidePad h).symm.trans hride) n hn

/-- What a write to scratchpad may change: its frame, of the cluster's record the write-through queue alone, and not the
epoch of memory. -/
def PadFrame (s t : State) (k : Nat) : Prop :=
  Claim.InsidePad s t k ∧ clusterAt t k = { clusterAt s k with wtQueue := (clusterAt t k).wtQueue } ∧
    t.mem.epoch = s.mem.epoch

theorem padFrame_refl (s : State) (k : Nat) : PadFrame s s k := ⟨insidePad_refl s k, rfl, rfl⟩

theorem padFrame_trans {s u t : State} {k : Nat} (h : PadFrame s u k) (g : PadFrame u t k) : PadFrame s t k := by
  obtain ⟨hin, hcluster, hepoch⟩ := h
  obtain ⟨gin, gcluster, gepoch⟩ := g
  refine ⟨insidePad_trans hin gin, ?_, gepoch.trans hepoch⟩
  rw [gcluster, hcluster]

theorem countFallback_insidePad (s : State) (k a : Nat) (primary : Bool) :
    Claim.InsidePad s (countFallback s a primary) k := by
  unfold countFallback
  split
  · exact insidePad_refl s k
  · refine ⟨rfl, fun _ _ => rfl, fun n => ?_⟩
    by_cases hn : n = a
    · subst hn
      rw [siteAt_modSite_self]
    · rw [siteAt_modSite_ne _ _ _ _ hn]

/-- A packet that finds a route enters the network, and its source may count a route beyond the primary one. -/
theorem sendBulk_of_reached (s : State) (k a b u : Nat) (p : Transit → BulkPacket)
    (h : passage s a b u ≠ .unreachable) :
    Claim.InsidePad s (sendBulk s a b u p) k ∧ (sendBulk s a b u p).clusters = s.clusters ∧
      (sendBulk s a b u p).mem = s.mem := by
  unfold sendBulk inject
  split
  · exact ⟨insidePad_refl s k, rfl, rfl⟩
  · cases hp : passage s a b u with
    | unreachable => exact absurd hp h
    | held hops => exact ⟨⟨rfl, fun _ _ => rfl, fun _ => rfl⟩, rfl, rfl⟩
    | through hops primary =>
      have hc := countFallback_insidePad s k a primary
      refine ⟨insidePad_trans hc ⟨rfl, fun _ _ => rfl, fun _ => rfl⟩, ?_, countFallback_mem s a primary⟩
      show (countFallback s a primary).clusters = s.clusters
      unfold countFallback
      split <;> rfl

theorem sendThrough_of_reached (s : State) (k line ord c n : Nat)
    (h : passage s (clusterHome s k) (72 + n) 0 ≠ .unreachable) :
    PadFrame s (sendThrough s k line ord c n) k ∧ (sendThrough s k line ord c n).mem = s.mem := by
  obtain ⟨hin, hclusters, hmem⟩ := sendBulk_of_reached s k (clusterHome s k) (72 + n) 0 (fun w =>
    { kind := .writeThrough c, k := k, e := 15, task := 0, ord := ord, addr := 64 * line, lines := 1
      data := latestBytes s (64 * line) 64, relay := none, way := w }) h
  have hcluster : clusterAt (sendThrough s k line ord c n) k = clusterAt s k := by
    unfold clusterAt sendThrough
    rw [hclusters]
  exact ⟨⟨hin, by rw [hcluster], congrArg Memory.epoch hmem⟩, hmem⟩

theorem partnerOf_lt {s : State} {n p : Nat} (hn : n < 16) (h : partnerOf s n = some p) : p < 16 := by
  have hxor : ∀ m, m < 16 → n ^^^ m < 16 := fun m hm => Nat.xor_lt_two_pow (n := 4) hn hm
  unfold partnerOf at h
  split at h
  · exact absurd h (by simp)
  · split at h
    · exact Option.some.inj h ▸ hxor 4 (by decide)
    · split at h
      · exact Option.some.inj h ▸ hxor 12 (by decide)
      · exact absurd h (by simp)

/-- A logical chiplet is backed by two of the 16 stacks (08 R233). -/
theorem backingOf_lt {s : State} {m : Nat} {b : Nat × Nat} (hm : m < 64) (h : backingOf s m = some b) :
    b.1 < 16 ∧ b.2 < 16 := by
  have hprimary : primaryStack m < 16 := by unfold primaryStack; split <;> omega
  have hfirst : (if stackRetired s (primaryStack m) then primaryStack m ^^^ 4 else primaryStack m) < 16 := by
    split
    · exact Nat.xor_lt_two_pow (n := 4) hprimary (by decide)
    · exact hprimary
  obtain ⟨p, hp, rfl⟩ := Option.map_eq_some_iff.mp h
  exact ⟨hfirst, partnerOf_lt hfirst hp⟩

/-- A carry line joins the write-through queue of its cluster. -/
theorem queueLine_padFrame (s : State) (k n : Nat) (x : WtLine) :
    PadFrame s (modCluster { s with noc := { s.noc with nextId := n } } k (fun c =>
      { c with wtQueue := c.wtQueue ++ [x] })) k := by
  refine ⟨⟨rfl, fun j hj => clusterAt_modCluster_ne _ k j _ hj, fun _ => rfl⟩, ?_, rfl⟩
  rw [clusterAt_modCluster_self]
  rfl

theorem throughLine_of_reached {s : State} {k : Nat} (hk : k < 512) (hride : rideThrough s = true)
    (hs : StacksReached s k) (line : Nat) :
    PadFrame s (throughLine k s line) k ∧ (throughLine k s line).mem = s.mem := by
  have hsend : ∀ u ord c n, PadFrame s u k → n < 16 →
      PadFrame s (sendThrough u k line ord c n) k ∧ (sendThrough u k line ord c n).mem = u.mem := by
    intro u ord c n hu hn
    have hride' : rideThrough u = true := (rideThrough_of_insidePad hu.1).trans hride
    obtain ⟨hqueue, hmem⟩ := sendThrough_of_reached u k line ord c n (stacksReached_of_insidePad hu.1 hs hride' n hn)
    exact ⟨padFrame_trans hu hqueue, hmem⟩
  unfold throughLine
  cases hb : backingOf s (k / 8) with
  | none => exact ⟨padFrame_refl s k, rfl⟩
  | some b =>
    obtain ⟨h1, h2⟩ := backingOf_lt (by omega) hb
    obtain ⟨hfirst, hmem1⟩ := hsend _ s.noc.nextId 1 b.1
      (queueLine_padFrame s k (s.noc.nextId + 1) { line := line, left := [1, 2] }) h1
    obtain ⟨hsecond, hmem2⟩ := hsend _ s.noc.nextId 2 b.2 hfirst h2
    exact ⟨hsecond, hmem2.trans hmem1⟩

theorem throughLines_of_reached {s : State} {k : Nat} (hk : k < 512) (hride : rideThrough s = true)
    (hs : StacksReached s k) (lines : List Nat) :
    PadFrame s (lines.foldl (throughLine k) s) k ∧ (lines.foldl (throughLine k) s).mem = s.mem := by
  induction lines generalizing s with
  | nil => exact ⟨padFrame_refl s k, rfl⟩
  | cons l r ih =>
    obtain ⟨hline, hmem⟩ := throughLine_of_reached hk hride hs l
    obtain ⟨hrest, hmems⟩ := ih ((rideThrough_of_insidePad hline.1).trans hride) (stacksReached_of_insidePad hline.1 hs)
    exact ⟨padFrame_trans hline hrest, hmems.trans hmem⟩

/-! ### Writes to scratchpad -/

theorem writeBytes_padFrame (s : State) (k a : Nat) (bs : List Byte) : PadFrame s (writeBytes s a bs) k :=
  ⟨writeBytes_insidePad s k a bs, by rw [writeBytes_eq]; rfl, writeBytes_epoch s a bs⟩

/-- A write to scratchpad changes memory as its bytes say; its carry lines go on their way. -/
theorem padWrite_of_reached {s : State} {k : Nat} (hk : k < 512) (hs : StacksReached s k) (a : Nat) (bs : List Byte) :
    PadFrame s (padWrite s k a bs) k ∧ (padWrite s k a bs).mem = (writeBytes s a bs).mem := by
  have hbytes := writeBytes_padFrame s k a bs
  unfold padWrite
  dsimp only
  split
  · next hcarry =>
    rw [Bool.and_eq_true] at hcarry
    obtain ⟨hlines, hmem⟩ := throughLines_of_reached hk ((rideThrough_of_insidePad hbytes.1).trans hcarry.1)
      (stacksReached_of_insidePad hbytes.1 hs)
      ((List.range (ceilDiv (a % 64 + bs.length) 64)).map (fun i => a / 64 + i))
    exact ⟨padFrame_trans hbytes hlines, hmem⟩
  · exact ⟨hbytes, rfl⟩

theorem padWrites_padFrame {s : State} {k : Nat} (hk : k < 512) (hs : StacksReached s k) (ws : List Write) :
    PadFrame s (padWrites s k ws) k := by
  induction ws generalizing s with
  | nil => exact padFrame_refl s k
  | cons w r ih =>
    obtain ⟨hw, -⟩ := padWrite_of_reached hk hs w.1 w.2
    exact padFrame_trans hw (ih (stacksReached_of_insidePad hw.1 hs))

/-- The same writes leave the same memory in two states that differ in the frame of writes alone. -/
theorem padWrites_mem_of_insidePad {s t : State} {k : Nat} (hk : k < 512) (hs : StacksReached s k)
    (h : Claim.InsidePad s t k) (hm : t.mem = s.mem) (ws : List Write) :
    (padWrites t k ws).mem = (padWrites s k ws).mem := by
  induction ws generalizing s t with
  | nil => exact hm
  | cons w r ih =>
    obtain ⟨hw, hwm⟩ := padWrite_of_reached hk hs w.1 w.2
    obtain ⟨hv, hvm⟩ := padWrite_of_reached hk (stacksReached_of_insidePad h hs) w.1 w.2
    have hmem : (padWrite t k w.1 w.2).mem = (padWrite s k w.1 w.2).mem :=
      hvm.trans ((writeBytes_mem_of_insidePad h hm w.1 w.2).trans hwm.symm)
    exact ih (stacksReached_of_insidePad hw.1 hs) (insidePad_trans (insidePad_symm hw.1) (insidePad_trans h hv.1)) hmem

/-- Without ride-through mode no line enters the write-through queue. -/
theorem padWrites_clusters_of_plain {s : State} (hride : rideThrough s = false) (k : Nat) (ws : List Write) :
    (padWrites s k ws).clusters = s.clusters := by
  induction ws generalizing s with
  | nil => rfl
  | cons w r ih =>
    have hw : padWrite s k w.1 w.2 = writeBytes s w.1 w.2 := by simp [padWrite, hride]
    have hride' : rideThrough (padWrite s k w.1 w.2) = false := by rw [hw, writeBytes_eq]; exact hride
    rw [padWrites, ih hride', hw, writeBytes_eq]

end Sys2Proof.Machine

/-! ## Vector instructions (07)

One rule for each kind: register operations (`writesResult_of_putResult`), loads (`loads_of_putTile`) and stores
(`stores_of_padWrites`). -/

namespace Sys2Proof.Machine
open Sys2Proof

/-! ### Vector instructions (07 R207) -/

/-- The one thing a vector command does when its instruction may start, nothing in flight bars it and the registers that
it reads are good. -/
theorem runVector_of_starts {k : ClusterId} {v : VSel} {s : State} {q : QInstr} {op : Nat}
    {eff : State → Nat → Nat → QInstr → State} {t : State} (hstart : Claim.Starts s k.val (engineCode (.v v)) op q)
    (hfree : vFree s k.val (engineCode (.v v)) q = true)
    (hregs : Claim.Accessible s ((vReads q).map (tileRange k.val (engineCode (.v v)))))
    (heff : eff (startInstr s k.val (engineCode (.v v)) q 0) k.val (engineCode (.v v)) q = t)
    (hroom : throughHeld s t k.val = false) : runVector k v op eff s = t := by
  have hguard := guarded_of_accessible (startInstr s k.val (engineCode (.v v)) q 0) k.val (engineCode (.v v)) q _
    (fun s => eff s k.val (engineCode (.v v)) q)
    (accessible_of_onlyCluster (startInstr_started s k.val (engineCode (.v v)) q).1 hregs)
  unfold runVector
  dsimp only
  rw [runEngine_of_starts s k.val _ op q _ _ hstart hfree (by rw [hguard, heff]; exact hroom), hguard,
    heff]

theorem throughHeld_of_flagsOnly {s t : State} {k task : Nat} {f : Flags} (h : Claim.FlagsOnly s t k task f) :
    throughHeld s t k = false := by
  obtain ⟨-, -, -, hrest⟩ := h
  refine throughHeld_of_same s t k ?_
  rw [hrest]

/-- What a vector instruction that writes register d alone leaves: the register, every other one, and flags. -/
def LeavesRegister (s t : State) (k e : Nat) (q : QInstr) (d : Nat) (r : List Word) (f : Flags) : Prop :=
  Claim.StartedInside s t k e q ∧ tileReg t k e d = r ∧ (∀ i, i ≠ d → tileReg t k e i = tileReg s k e i) ∧
  Claim.FlagsOnly s t k q.task f

theorem startedInside_putTile {s u : State} {k e : Nat} {q : QInstr} (h : Claim.StartedInside s u k e q) (d : Nat)
    (r : List Word) : Claim.StartedInside s (putTile u k e d r) k e q := by
  unfold putTile
  exact startedInside_modEngine h _ (fun _ => rfl) (fun _ => rfl)

theorem flagsOnly_putTile {s u : State} {k task : Nat} {g : Flags} (h : Claim.FlagsOnly s u k task g) (e d : Nat)
    (r : List Word) : Claim.FlagsOnly s (putTile u k e d r) k task g := by
  unfold putTile
  exact flagsOnly_modEngine h _

theorem tasks_putTile (s : State) (k e d : Nat) (r : List Word) :
    (clusterAt (putTile s k e d r) k).tasks = (clusterAt s k).tasks := by
  rw [putTile, modEngine, clusterAt_modCluster_self]
  rfl

theorem leavesRegister_putTile (s : State) (k e : Nat) (q : QInstr) (d : Nat) (r : List Word) (f : Flags) :
    LeavesRegister s (setFlags (putTile (startInstr s k e q 0) k e d r) k q.task f) k e q d r f := by
  refine ⟨startedInside_setFlags (startedInside_putTile (startInstr_started s k e q) d r) _ _, by simp, fun i hi => ?_,
    flagsOnly_setFlags (flagsOnly_putTile (startInstr_flagsOnly s k e q) e d r) ?_ f⟩
  · rw [tileReg_setFlags, tileReg_putTile_ne _ _ _ _ _ _ hi, tileReg_startInstr]
  · rw [tasks_putTile, tasks_startInstr]

theorem leavesRegister_modEngine {s u : State} {k e : Nat} {q : QInstr} {d : Nat} {r : List Word} {f : Flags}
    (h : LeavesRegister s u k e q d r f) (g : EngineRec → EngineRec) (hqueue : ∀ x, (g x).queue = x.queue)
    (hflight : ∀ x, (g x).flight = x.flight) (htiles : ∀ x, (g x).tiles = x.tiles) :
    LeavesRegister s (modEngine u k e g) k e q d r f := by
  obtain ⟨hstart, hreg, hothers, hflags⟩ := h
  have hsame : ∀ i, tileReg (modEngine u k e g) k e i = tileReg u k e i := fun i => tileReg_modEngine u k e i g htiles
  exact ⟨startedInside_modEngine hstart g hqueue hflight, (hsame d).trans hreg,
    fun i hi => (hsame i).trans (hothers i hi), flagsOnly_modEngine hflags g⟩

/-- A register operation started in s (07 R200, R210): its whole register, and 4,096 elements counted. -/
theorem putResult_leavesRegister (s : State) (k e : Nat) (q : QInstr) (rs : List (Word × Flags)) :
    LeavesRegister s (putResult (startInstr s k e q 0) k e q rs) k e q (vDst q) (rs.map Prod.fst)
      (rs.foldl (fun f r => f ||| r.2) flagNone) ∧
    (engineAt (putResult (startInstr s k e q 0) k e q rs) k e).work = (engineAt s k e).work + 4096 := by
  refine ⟨leavesRegister_modEngine (leavesRegister_putTile s k e q (vDst q) _ _) _ (fun _ => rfl) (fun _ => rfl)
    (fun _ => rfl), ?_⟩
  have hwork : (engineAt (startInstr s k e q 0) k e).work = (engineAt s k e).work := by
    rw [startInstr_sameEngine s k e q]
  rw [putResult, engineAt_modEngine_self, engineAt_setFlags, putTile, engineAt_modEngine_self]
  exact congrArg (· + 4096) hwork

/-- The outcome that the statement on register operations gives a command. -/
def WritesResult (s : State) (k e : Nat) (q : QInstr) (cmd : Instr) (r : List Word) : Prop :=
  ∃ t f, exec cmd s = .next t ∧ Claim.StartedInside s t k e q ∧ tileReg t k e (vDst q) = r ∧
    (∀ i, i ≠ vDst q → tileReg t k e i = tileReg s k e i) ∧
    (engineAt t k e).work = (engineAt s k e).work + 4096 ∧ Claim.FlagsOnly s t k q.task f

section
variable {k : ClusterId} {v : VSel} {s : State} {q : QInstr}
  (hfree : vFree s k.val (engineCode (.v v)) q = true)
  (hregs : Claim.Accessible s ((vReads q).map (tileRange k.val (engineCode (.v v)))))
include hfree hregs

/-- The rule of register operations: an effect that puts the results rs writes their words. -/
theorem writesResult_of_putResult {cmd : Instr} {op : Nat} {eff : State → Nat → Nat → QInstr → State}
    {rs : List (Word × Flags)} {r : List Word} (hexec : exec cmd s = .next (runVector k v op eff s))
    (hstart : Claim.Starts s k.val (engineCode (.v v)) op q)
    (heff : eff (startInstr s k.val (engineCode (.v v)) q 0) k.val (engineCode (.v v)) q =
      putResult (startInstr s k.val (engineCode (.v v)) q 0) k.val (engineCode (.v v)) q rs)
    (hr : rs.map Prod.fst = r) : WritesResult s k.val (engineCode (.v v)) q cmd r := by
  obtain ⟨⟨hin, hreg, hothers, hflags⟩, hwork⟩ := putResult_leavesRegister s k.val (engineCode (.v v)) q rs
  have hrun := runVector_of_starts hstart hfree hregs heff (throughHeld_of_flagsOnly hflags)
  exact ⟨_, _, hexec.trans (congrArg _ hrun), hin, hreg.trans hr, hothers, hwork, hflags⟩

end

/-! ### What each operation puts, from the registers at its start -/

section
variable (s : State) (k e n : Nat) (q p : QInstr)

theorem vA_startInstr : vA (startInstr s k e q n) k e p = vA s k e p := tileReg_startInstr s k e n _ q

theorem vB_startInstr : vB (startInstr s k e q n) k e p = vB s k e p := by simp only [vB, tileReg_startInstr]

theorem vC_startInstr : vC (startInstr s k e q n) k e p = vC s k e p := tileReg_startInstr s k e n _ q

theorem vectorTwo_startInstr (f : Nat → Word → Word → Word × Flags) : vectorTwo f (startInstr s k e q n) k e p =
    putResult (startInstr s k e q n) k e p (List.zipWith (f (vFunc p)) (vA s k e p) (vB s k e p)) := by
  rw [vectorTwo, vA_startInstr, vB_startInstr]

theorem vectorOne_startInstr : vectorOne (startInstr s k e q n) k e p =
    putResult (startInstr s k e q n) k e p ((vA s k e p).map (oneFn (vFunc p))) := by
  rw [vectorOne, vA_startInstr]

theorem vectorFma_startInstr : vectorFma (startInstr s k e q n) k e p =
    putResult (startInstr s k e q n) k e p (if vMode p = 2 then mapThree fmaFn (vA s k e p) (splat (vLo p)) (splat (vHi p))
      else mapThree fmaFn (vA s k e p) (vB s k e p) (vC s k e p)) := by
  rw [vectorFma, vA_startInstr, vB_startInstr, vC_startInstr, apply_ite (putResult _ k e p)]

theorem vectorSelect_startInstr : vectorSelect (startInstr s k e q n) k e p =
    putResult (startInstr s k e q n) k e p (if vMode p = 2 then mapThree selFn (splat (vLo p)) (splat (vHi p)) (vC s k e p)
      else mapThree selFn (vA s k e p) (vB s k e p) (vC s k e p)) := by
  rw [vectorSelect, vA_startInstr, vB_startInstr, vC_startInstr, apply_ite (putResult _ k e p)]

theorem vectorReduce_startInstr : vectorReduce (startInstr s k e q n) k e p =
    putResult (startInstr s k e q n) k e p (if bitFld p.word 58
      then (List.range 64).flatMap (fun _ => (turned 0 64 (tileRows (vA s k e p))).map (reduce (vFunc p)))
      else ((tileRows (vA s k e p)).map (reduce (vFunc p))).flatMap (fun r => List.replicate 64 r)) := by
  rw [vectorReduce, vA_startInstr]
  cases bitFld p.word 58 <;> rfl

/-- The rows of a register converted to the format of FUNC and read back: the upper half, then the lower. -/
def convertedRows (p : QInstr) (a : List Word) : List (List Val) :=
  let vals := (tileRows a).map (fun r => r.map wordVal)
  let half := fun i : Nat => List.zipWith (fun x y => x ++ y) (readBack (BitVec.ofNat 4 (vFunc p)) (pieceOf vals i 0))
    (readBack (BitVec.ofNat 4 (vFunc p)) (pieceOf vals i 1))
  half 0 ++ half 1

theorem vectorConvert_startInstr : ∃ flags : Flags, vectorConvert (startInstr s k e q n) k e p =
    putResult (startInstr s k e q n) k e p ((((convertedRows p (vA s k e p)).flatten.map widen).zipIdx).map
      (fun w => (w.1, if w.2 = 0 then flags else flagNone))) := by
  rw [vectorConvert, vA_startInstr]
  exact ⟨_, rfl⟩

end

/-! ### The words of each operation (07 R201 to R205) -/

theorem words_zipWith (f : Word → Word → Word × Flags) (a b : List Word) :
    (List.zipWith f a b).map Prod.fst = List.zipWith (fun x y => (f x y).1) a b := List.map_zipWith

theorem words_mapThree (f : ElemFn) (a b c : List Word) :
    (mapThree f a b c).map Prod.fst = ((a.zip b).zip c).map (fun p => (f p.1.1 p.1.2 p.2).1) := List.map_map

theorem words_one (func : Nat) (a : List Word) :
    (a.map (oneFn func)).map Prod.fst = a.map (fun x => if (val32 x).isNan then nan32 else (unFn func x).1) := by
  rw [List.map_map]
  refine List.map_congr_left (fun x _ => ?_)
  show (oneFn func x).1 = _
  unfold oneFn
  split <;> rfl

/-- The results of rows, each across its row. -/
theorem words_acrossRows (func : Nat) (rows : List (List Word)) :
    ((rows.map (reduce func)).flatMap (fun r => List.replicate 64 r)).map Prod.fst =
      rows.flatMap (fun r => List.replicate 64 (reduce func r).1) := by
  rw [List.map_flatMap, List.flatMap_map]
  simp only [List.map_replicate]

/-- The results of columns, each down its column. -/
theorem words_acrossColumns (func : Nat) (cols : List (List Word)) :
    ((List.range 64).flatMap (fun _ => cols.map (reduce func))).map Prod.fst =
      (List.range 64).flatMap (fun _ => cols.map (fun r => (reduce func r).1)) := by
  rw [List.map_flatMap]
  simp only [List.map_map]
  rfl

theorem words_convert (l : List Word) (flags : Flags) :
    ((l.zipIdx).map (fun w => (w.1, if w.2 = 0 then flags else flagNone))).map Prod.fst = l := by
  rw [List.map_map]
  exact List.zipIdx_map_fst 0 l

/-- Settles O23: each operation puts its results in its whole register (`writesResult_of_putResult`), and their words are
the function of the operand registers that the statement names. -/
theorem vectorOperationsWriteTheirRegister : Obligations.VectorOperationsWriteTheirRegister := by
  unfold Obligations.VectorOperationsWriteTheirRegister
  intro k s q v e a b c lo hi both func writes hfree hregs
  refine ⟨fun h => ?vbin, fun h => ?vfma, fun h => ?vun, fun h => ?vcmp, fun h => ?vsel, fun h => ?vred, fun h => ?vcvt⟩
  case vbin =>
    exact writesResult_of_putResult hfree hregs rfl h (vectorTwo_startInstr s k e 0 q q binFn)
      (words_zipWith (binFn func) a b)
  case vfma =>
    refine writesResult_of_putResult hfree hregs rfl h (vectorFma_startInstr s k e 0 q q) ?_
    rw [apply_ite (List.map Prod.fst), words_mapThree, words_mapThree]
    rfl
  case vun =>
    exact writesResult_of_putResult hfree hregs rfl h (vectorOne_startInstr s k e 0 q q) (words_one func a)
  case vcmp =>
    exact writesResult_of_putResult hfree hregs rfl h (vectorTwo_startInstr s k e 0 q q cmpFn)
      (words_zipWith (cmpFn func) a b)
  case vsel =>
    refine writesResult_of_putResult hfree hregs rfl h (vectorSelect_startInstr s k e 0 q q) ?_
    rw [apply_ite (List.map Prod.fst), words_mapThree, words_mapThree]
    by_cases hm : vMode q = 2
    · rw [if_pos hm, if_pos (show both from hm)]
      rfl
    · rw [if_neg hm, if_neg (show ¬both from hm)]
      rfl
  case vred =>
    refine writesResult_of_putResult hfree hregs rfl h (vectorReduce_startInstr s k e 0 q q) ?_
    rw [apply_ite (List.map Prod.fst), words_acrossColumns, words_acrossRows]
    rfl
  case vcvt =>
    obtain ⟨flags, hput⟩ := vectorConvert_startInstr s k e 0 q q
    exact writesResult_of_putResult hfree hregs rfl h hput (words_convert _ flags)

/-! ### Loads (07 R198, R206) -/

/-- The operand of VLD: its format from the word or from the descriptor. -/
def loadOperand (s : State) (k : Nat) (q : QInstr) : Operand :=
  operandOf s k (vDesc q) (fmtFld q.word 64) (lineAt q 40) (extLine q 8) false

/-- The rows that VLD brings to its register, turned where T is set. -/
def loadRows (s : State) (k : Nat) (q : QInstr) : List (List Val) :=
  let o := loadOperand s k q
  let region := regionRows s o.fmt o.addr o.sa (vShape q) (vQuad q)
  if vTurn q then turned Val.zero 64 region else region

section
variable {s u : State} {k : Nat} {q : QInstr} (h : Claim.OnlyCluster s u k)
include h

theorem loadOperand_of_onlyCluster : loadOperand u k q = loadOperand s k q := by
  have hbyte : ∀ a, readByte u a = readByte s a := fun a => by rw [h.1]; rfl
  simp only [loadOperand, operandOf, descFormat, hbyte]

theorem regionRows_of_onlyCluster (c : BitVec 4) (a sa : Nat) (shape : Bool) (quad : Nat) :
    regionRows u c a sa shape quad = regionRows s c a sa shape quad := by
  have hfetch : engineFetch u = engineFetch s := by
    funext a n
    exact readBytes_of_onlyCluster h a n
  simp only [regionRows, hfetch]

theorem vectorLoad_of_accessible {e : Nat}
    (hdesc : Claim.Accessible s (if vDesc q then [{ addr := padAddr k (extLine q 8), len := 64, write := false }] else []))
    (hlegal : vDesc q = true → descLegal (loadOperand s k q).fmt = true)
    (hregion : Claim.Accessible s (regionRanges (loadOperand s k q).fmt (loadOperand s k q).addr (loadOperand s k q).sa
      (vShape q) (vQuad q) false)) :
    vectorLoad u k e q = setFlags (putTile u k e (vReg q) ((loadRows s k q).flatten.map widen)) k q.task
      (rowsNan (loadRows s k q) ||| widenFlags (loadRows s k q)) := by
  have hok : ¬ (vDesc q && !descLegal (loadOperand s k q).fmt) = true := by
    cases hd : vDesc q with
    | false => simp
    | true => simp [hlegal hd]
  have hoperand := loadOperand_of_onlyCluster (q := q) h
  unfold vectorLoad
  dsimp only
  rw [guarded_of_accessible _ _ _ _ _ _ (accessible_of_onlyCluster h hdesc)]
  unfold loadOperand at hoperand
  rw [hoperand]
  refine (if_neg hok).trans ?_
  refine (guarded_of_accessible _ _ _ _ _ _ (accessible_of_onlyCluster h hregion)).trans ?_
  rw [regionRows_of_onlyCluster h]
  rfl

end

theorem lineLoad_of_accessible {s u : State} {k e : Nat} {q : QInstr} (h : Claim.OnlyCluster s u k)
    (hline : Claim.Accessible s [{ addr := padAddr k (lineAt q 40), len := 64, write := false }]) :
    let words := (chunksOf 4 (readBytes s (padAddr k (lineAt q 40)) 64)).map (fun b => (BitVec.ofNat 32 (leNat b) : Word))
    lineLoad u k e q = setFlags (putTile u k e (vReg q)
      ((tileReg u k e (vReg q)).take (vSpot q) ++ words.map canonical ++ (tileReg u k e (vReg q)).drop (vSpot q + 16)))
      k q.task (wordsNan words) := by
  unfold lineLoad
  dsimp only
  rw [guarded_of_accessible _ _ _ _ _ _ (accessible_of_onlyCluster h hline), readBytes_of_onlyCluster h]

/-! ### Stores (07 R199, R206) -/

/-- The writes of VST, with the flags of its conversion. -/
def storedRegion (s : State) (k e : Nat) (q : QInstr) : List Write × Flags :=
  let t := tileReg s k e (vReg q)
  regionWrites (fmtFld q.word 64) (padAddr k (lineAt q 40)) (padAddr k (extLine q 8)) (vShape q) (vQuad q)
    (if vTurn q then turned 0 64 (tileRows t) else tileRows t)

theorem vectorStore_of_accessible {s u : State} {k e : Nat} {q : QInstr} (h : Claim.OnlyCluster s u k)
    (hregs : ∀ i, tileReg u k e i = tileReg s k e i) (hregion : Claim.Accessible s (writeRanges (storedRegion s k e q).1)) :
    vectorStore u k e q = setFlags (padWrites u k (storedRegion s k e q).1) k q.task
      ((storedRegion s k e q).2 ||| wordsNan (tileReg s k e (vReg q))) := by
  unfold vectorStore
  dsimp only
  rw [hregs]
  exact guarded_of_accessible _ _ _ _ _ _ (accessible_of_onlyCluster h hregion)

theorem lineStore_of_accessible {s u : State} {k e : Nat} {q : QInstr} (h : Claim.OnlyCluster s u k)
    (hregs : ∀ i, tileReg u k e i = tileReg s k e i)
    (hline : Claim.Accessible s [{ addr := padAddr k (lineAt q 40), len := 64, write := true }]) :
    let masked := (((tileReg s k e (vReg q)).drop (vSpot q)).take 16).zipIdx.filter (fun w => bitFld q.word (79 + w.2))
    lineStore u k e q = setFlags (padWrites u k
      (masked.map (fun w => (padAddr k (lineAt q 40) + 4 * w.2, leBytes 4 (canonical w.1).toNat)))) k q.task
      (wordsNan (masked.map Prod.fst)) := by
  unfold lineStore
  dsimp only
  rw [hregs, guarded_of_accessible _ _ _ _ _ _ (accessible_of_onlyCluster h hline)]

/-- A store started in s leaves its bytes, and the registers as they were. -/
theorem store_leaves {s : State} {k : Nat} (hk : k < 512) (hs : StacksReached s k) (e : Nat) (q : QInstr)
    (ws : List Write) (f : Flags) :
    let t := setFlags (padWrites (startInstr s k e q 0) k ws) k q.task f
    Claim.InsidePad s t k ∧ Claim.Started s t k e q ∧ t.mem = (padWrites s k ws).mem ∧
      ∀ i, tileReg t k e i = tileReg s k e i := by
  obtain ⟨honly, hstart⟩ := startInstr_started s k e q
  have hin := insidePad_of_onlyCluster honly
  obtain ⟨hpad, hcluster, hepoch⟩ := padWrites_padFrame hk (stacksReached_of_insidePad hin hs) ws
  have hengine : ∀ d, engineAt (padWrites (startInstr s k e q 0) k ws) k d = engineAt (startInstr s k e q 0) k d :=
    fun d => by unfold engineAt; rw [hcluster]; rfl
  have hsync : ∀ j, (clusterAt (padWrites (startInstr s k e q 0) k ws) k).syncObj j =
      (clusterAt (startInstr s k e q 0) k).syncObj j := fun j => by rw [hcluster]; rfl
  refine ⟨insidePad_trans (insidePad_trans hin hpad) (insidePad_of_onlyCluster (onlyCluster_modCluster _ k _)),
    started_setFlags (started_congr hstart (by rw [hengine]) (by rw [hengine]) (fun d _ => hengine d) hsync) _ _,
    padWrites_mem_of_insidePad hk hs hin rfl ws, fun i => ?_⟩
  rw [tileReg_setFlags, tileReg_congr (congrArg EngineRec.tiles (hengine e)) hepoch, tileReg_startInstr]

/-- A store waits for no room in the write-through queue where its carry lines flow (08 R235). -/
theorem throughHeld_store {s : State} {k : Nat} (h : Claim.CarryFlows s k) (e task : Nat) (q : QInstr) (ws : List Write)
    (f : Flags) : throughHeld s (setFlags (padWrites (startInstr s k e q 0) k ws) k task f) k = false := by
  cases hride : rideThrough s with
  | true => exact throughHeld_of_room s _ k (h hride).1
  | false =>
    refine throughHeld_of_same s _ k ?_
    have hplain : rideThrough (startInstr s k e q 0) = false := hride
    rw [clusterAt_setFlags]
    show (clusterAt (padWrites (startInstr s k e q 0) k ws) k).wtQueue = _
    rw [clusterAt, padWrites_clusters_of_plain hplain]
    exact startInstr_wtQueue s k e q 0

/-! ### Loads and stores as commands -/

section
variable {k : ClusterId} {v : VSel} {s : State} {q : QInstr}
  (hfree : vFree s k.val (engineCode (.v v)) q = true)
  (hregs : Claim.Accessible s ((vReads q).map (tileRange k.val (engineCode (.v v)))))
include hfree hregs

theorem loads_of_putTile {cmd : Instr} {op : Nat} {eff : State → Nat → Nat → QInstr → State} {r : List Word} {f : Flags}
    (hexec : exec cmd s = .next (runVector k v op eff s)) (hstart : Claim.Starts s k.val (engineCode (.v v)) op q)
    (heff : eff (startInstr s k.val (engineCode (.v v)) q 0) k.val (engineCode (.v v)) q =
      setFlags (putTile (startInstr s k.val (engineCode (.v v)) q 0) k.val (engineCode (.v v)) (vReg q) r) k.val q.task f) :
    ∃ t f, exec cmd s = .next t ∧ LeavesRegister s t k.val (engineCode (.v v)) q (vReg q) r f := by
  have hleaves := leavesRegister_putTile s k.val (engineCode (.v v)) q (vReg q) r f
  obtain ⟨-, -, -, hflags⟩ := hleaves
  have hrun := runVector_of_starts hstart hfree hregs heff (throughHeld_of_flagsOnly hflags)
  exact ⟨_, _, hexec.trans (congrArg _ hrun), leavesRegister_putTile ..⟩

theorem stores_of_padWrites {cmd : Instr} {op : Nat} {eff : State → Nat → Nat → QInstr → State} {ws : List Write}
    {f : Flags} (hexec : exec cmd s = .next (runVector k v op eff s))
    (hstart : Claim.Starts s k.val (engineCode (.v v)) op q) (hflow : Claim.CarryFlows s k.val)
    (heff : eff (startInstr s k.val (engineCode (.v v)) q 0) k.val (engineCode (.v v)) q =
      setFlags (padWrites (startInstr s k.val (engineCode (.v v)) q 0) k.val ws) k.val q.task f) :
    ∃ t, exec cmd s = .next t ∧ Claim.InsidePad s t k.val ∧ Claim.Started s t k.val (engineCode (.v v)) q ∧
      t.mem = (padWrites s k.val ws).mem ∧
      ∀ i, tileReg t k.val (engineCode (.v v)) i = tileReg s k.val (engineCode (.v v)) i := by
  have hrun := runVector_of_starts hstart hfree hregs heff (throughHeld_store hflow _ q.task q ws f)
  exact ⟨_, hexec.trans (congrArg _ hrun), store_leaves k.isLt (stacksReached_of_carryFlows hflow) _ q ws f⟩

end

/-- Settles O24: a load puts its words in its register (`loads_of_putTile`), a store writes its bytes and keeps every
register (`stores_of_padWrites`). -/
theorem vectorLoadsAndStoresMoveTheirRegion : Obligations.VectorLoadsAndStoresMoveTheirRegion := by
  unfold Obligations.VectorLoadsAndStoresMoveTheirRegion
  intro k s q v e line o region reg stored words spot masked lineWrites loads stores hfree hregs
  have honly : Claim.OnlyCluster s (startInstr s k.val e q 0) k.val := (startInstr_started s k.val e q).1
  have hsame : ∀ i, tileReg (startInstr s k.val e q 0) k.val e i = tileReg s k.val e i :=
    fun i => tileReg_startInstr s k.val e 0 i q
  refine ⟨fun h hdesc hlegal hregion => ?vld, fun h hflow hregion => ?vst, fun h hline => ?vldl,
    fun h hflow hline => ?vstl⟩
  case vld =>
    exact loads_of_putTile hfree hregs rfl h (vectorLoad_of_accessible honly hdesc hlegal hregion)
  case vst =>
    exact stores_of_padWrites hfree hregs rfl h hflow (vectorStore_of_accessible honly hsame hregion)
  case vldl =>
    have heff := lineLoad_of_accessible (e := e) honly hline
    rw [hsame] at heff
    exact loads_of_putTile hfree hregs rfl h heff
  case vstl =>
    exact stores_of_padWrites hfree hregs rfl h hflow (lineStore_of_accessible honly hsame hline)

end Sys2Proof.Machine
